-- ==== Sys2Proof/Word.lean ====
section
/-! DEFINITION. The bit-vector widths of the SIRCIS ALU instructions (`00_scope.md` R5, R6). -/

namespace Sys2Proof

/-- `XLEN`: a general register and every ALU result are 16 bits wide (`10_state.md` R10). -/
abbrev Word := BitVec 16

/-- `IMM8_W`: the Short Immediate constant is 8 bits wide (`30_encoding.md` R34). -/
abbrev Byte := BitVec 8

/-- `ILEN`: an instruction word is 32 bits (`30_encoding.md` R31, decided by D1). -/
abbrev InstrWord := BitVec 32

end Sys2Proof
end

