-- ==== Sys2Proof/Syntax.lean ====
section
/-! DEFINITION. The abstract instruction of `30_encoding.md` R30: registers, shift operand, status override,
operation, and one constructor of `Instr` for each of the 33 rows of `spec/opcode_table.json`. -/

namespace Sys2Proof

/-- The general registers an ALU instruction may name (`10_state.md` R11, decided by D21). -/
inductive Reg
  | r1 | r2 | r3 | r4 | r5 | r6 | r7
deriving DecidableEq, Repr

/-- The shift operand (`30_encoding.md` R30, R38): none, or `LSL #n` with `n` in 0..15, four bits of the word. -/
inductive Shift
  /-- No shift operand: the operand passes unshifted. -/
  | noShift
  /-- `LSL #n`, logical shift left. -/
  | lsl (n : BitVec 4)
deriving DecidableEq, Repr

/-- The status override (`30_encoding.md` R30, R36, R45). -/
inductive SF
  /-- `[A]`, or no override written: flags from the ALU result. -/
  | a
  /-- `[S]`: flags from the shift result. -/
  | s
  /-- `[N]`: no flag is written. -/
  | n
deriving DecidableEq, Repr

/-- The three format variants (`30_encoding.md` R30, R32). -/
inductive Format
  | imm | short | reg
deriving DecidableEq, Repr

/-- The eleven operations (`00_scope.md` R3). -/
inductive Op
  | add | adc | sub | sbc | and | orr | xor | load | cmp | tsa | tsx
deriving DecidableEq, Repr

/-- CMP, TSA, TSX: they compute, write flags and discard the result (`44_test_compare.md`). -/
def Op.isTest : Op → Bool
  | .cmp | .tsa | .tsx => true
  | .add | .adc | .sub | .sbc | .and | .orr | .xor | .load => false

/-- One constructor per row of `spec/opcode_table.json`: `<op>Imm` is the Immediate format (opcode 0x0n),
`<op>Short` the Short Immediate format (0x2n), `<op>Reg` the Register format (0x3n). -/
inductive Instr
  /-- ADDI 0x00, R70. -/
  | addImm (rD : Reg) (imm16 : Word) (sf : SF)
  /-- ADDI 0x20, R71. -/
  | addShort (rD : Reg) (imm8 : Byte) (sh : Shift) (sf : SF)
  /-- ADDR 0x30, R72. -/
  | addReg (rD rS1 rS2 : Reg) (sh : Shift) (sf : SF)
  /-- ADCI 0x01, R73. -/
  | adcImm (rD : Reg) (imm16 : Word) (sf : SF)
  /-- ADCI 0x21, R74. -/
  | adcShort (rD : Reg) (imm8 : Byte) (sh : Shift) (sf : SF)
  /-- ADCR 0x31, R75. -/
  | adcReg (rD rS1 rS2 : Reg) (sh : Shift) (sf : SF)
  /-- SUBI 0x02, R76. -/
  | subImm (rD : Reg) (imm16 : Word) (sf : SF)
  /-- SUBI 0x22, R77. -/
  | subShort (rD : Reg) (imm8 : Byte) (sh : Shift) (sf : SF)
  /-- SUBR 0x32, R78. -/
  | subReg (rD rS1 rS2 : Reg) (sh : Shift) (sf : SF)
  /-- SBCI 0x03, R79. -/
  | sbcImm (rD : Reg) (imm16 : Word) (sf : SF)
  /-- SBCI 0x23, R80. -/
  | sbcShort (rD : Reg) (imm8 : Byte) (sh : Shift) (sf : SF)
  /-- SBCR 0x33, R81. -/
  | sbcReg (rD rS1 rS2 : Reg) (sh : Shift) (sf : SF)
  /-- ANDI 0x04, R82. -/
  | andImm (rD : Reg) (imm16 : Word) (sf : SF)
  /-- ANDI 0x24, R83. -/
  | andShort (rD : Reg) (imm8 : Byte) (sh : Shift) (sf : SF)
  /-- ANDR 0x34, R84. -/
  | andReg (rD rS1 rS2 : Reg) (sh : Shift) (sf : SF)
  /-- ORRI 0x05, R85. -/
  | orrImm (rD : Reg) (imm16 : Word) (sf : SF)
  /-- ORRI 0x25, R86. -/
  | orrShort (rD : Reg) (imm8 : Byte) (sh : Shift) (sf : SF)
  /-- ORRR 0x35, R87. -/
  | orrReg (rD rS1 rS2 : Reg) (sh : Shift) (sf : SF)
  /-- XORI 0x06, R88. -/
  | xorImm (rD : Reg) (imm16 : Word) (sf : SF)
  /-- XORI 0x26, R89. -/
  | xorShort (rD : Reg) (imm8 : Byte) (sh : Shift) (sf : SF)
  /-- XORR 0x36, R90. -/
  | xorReg (rD rS1 rS2 : Reg) (sh : Shift) (sf : SF)
  /-- LOAD 0x07, R91. -/
  | loadImm (rD : Reg) (imm16 : Word) (sf : SF)
  /-- LOAD 0x27, R92. -/
  | loadShort (rD : Reg) (imm8 : Byte) (sh : Shift) (sf : SF)
  /-- LOAD 0x37, R93. The shift operand is part of R30's `Reg` shape; a term with one is refused (D12). -/
  | loadReg (rD rS : Reg) (sh : Shift) (sf : SF)
  /-- CMPI 0x0A, R94; the source register is carried in the `rD` position. -/
  | cmpImm (rS : Reg) (imm16 : Word) (sf : SF)
  /-- CMPI 0x2A, R95. -/
  | cmpShort (rS : Reg) (imm8 : Byte) (sh : Shift) (sf : SF)
  /-- CMPR 0x3A, R96; no destination. -/
  | cmpReg (rS1 rS2 : Reg) (sh : Shift) (sf : SF)
  /-- TSAI 0x0C, R97. -/
  | tsaImm (rS : Reg) (imm16 : Word) (sf : SF)
  /-- TSAI 0x2C, R98. -/
  | tsaShort (rS : Reg) (imm8 : Byte) (sh : Shift) (sf : SF)
  /-- TSAR 0x3C, R99; no destination. -/
  | tsaReg (rS1 rS2 : Reg) (sh : Shift) (sf : SF)
  /-- TSXI 0x0E, R100. -/
  | tsxImm (rS : Reg) (imm16 : Word) (sf : SF)
  /-- TSXI 0x2E, R101. -/
  | tsxShort (rS : Reg) (imm8 : Byte) (sh : Shift) (sf : SF)
  /-- TSXR 0x3E, R102; no destination. -/
  | tsxReg (rS1 rS2 : Reg) (sh : Shift) (sf : SF)
deriving DecidableEq, Repr

/-- The three shapes of R30. In the `reg` shape `rD` is absent for CMP, TSA, TSX and `rS1` is absent for LOAD
(`30_encoding.md` R30, R40). -/
inductive Shape
  | imm (op : Op) (rD : Reg) (imm16 : Word) (sf : SF)
  | short (op : Op) (rD : Reg) (imm8 : Byte) (sh : Shift) (sf : SF)
  | reg (op : Op) (rD rS1 : Option Reg) (rS2 : Reg) (sh : Shift) (sf : SF)
deriving DecidableEq, Repr

/-- The R30 shape of an instruction. -/
def Instr.shape : Instr → Shape
  | .addImm rD k sf => .imm .add rD k sf
  | .addShort rD k sh sf => .short .add rD k sh sf
  | .addReg rD rS1 rS2 sh sf => .reg .add (some rD) (some rS1) rS2 sh sf
  | .adcImm rD k sf => .imm .adc rD k sf
  | .adcShort rD k sh sf => .short .adc rD k sh sf
  | .adcReg rD rS1 rS2 sh sf => .reg .adc (some rD) (some rS1) rS2 sh sf
  | .subImm rD k sf => .imm .sub rD k sf
  | .subShort rD k sh sf => .short .sub rD k sh sf
  | .subReg rD rS1 rS2 sh sf => .reg .sub (some rD) (some rS1) rS2 sh sf
  | .sbcImm rD k sf => .imm .sbc rD k sf
  | .sbcShort rD k sh sf => .short .sbc rD k sh sf
  | .sbcReg rD rS1 rS2 sh sf => .reg .sbc (some rD) (some rS1) rS2 sh sf
  | .andImm rD k sf => .imm .and rD k sf
  | .andShort rD k sh sf => .short .and rD k sh sf
  | .andReg rD rS1 rS2 sh sf => .reg .and (some rD) (some rS1) rS2 sh sf
  | .orrImm rD k sf => .imm .orr rD k sf
  | .orrShort rD k sh sf => .short .orr rD k sh sf
  | .orrReg rD rS1 rS2 sh sf => .reg .orr (some rD) (some rS1) rS2 sh sf
  | .xorImm rD k sf => .imm .xor rD k sf
  | .xorShort rD k sh sf => .short .xor rD k sh sf
  | .xorReg rD rS1 rS2 sh sf => .reg .xor (some rD) (some rS1) rS2 sh sf
  | .loadImm rD k sf => .imm .load rD k sf
  | .loadShort rD k sh sf => .short .load rD k sh sf
  | .loadReg rD rS sh sf => .reg .load (some rD) none rS sh sf
  | .cmpImm rS k sf => .imm .cmp rS k sf
  | .cmpShort rS k sh sf => .short .cmp rS k sh sf
  | .cmpReg rS1 rS2 sh sf => .reg .cmp none (some rS1) rS2 sh sf
  | .tsaImm rS k sf => .imm .tsa rS k sf
  | .tsaShort rS k sh sf => .short .tsa rS k sh sf
  | .tsaReg rS1 rS2 sh sf => .reg .tsa none (some rS1) rS2 sh sf
  | .tsxImm rS k sf => .imm .tsx rS k sf
  | .tsxShort rS k sh sf => .short .tsx rS k sh sf
  | .tsxReg rS1 rS2 sh sf => .reg .tsx none (some rS1) rS2 sh sf

/-- The operation of an instruction. -/
def Instr.op (i : Instr) : Op :=
  match i.shape with
  | .imm op _ _ _ | .short op _ _ _ _ | .reg op _ _ _ _ _ => op

/-- The format of an instruction. -/
def Instr.format (i : Instr) : Format :=
  match i.shape with
  | .imm .. => .imm
  | .short .. => .short
  | .reg .. => .reg

/-- The status override of an instruction. -/
def Instr.sf (i : Instr) : SF :=
  match i.shape with
  | .imm _ _ _ sf | .short _ _ _ _ sf | .reg _ _ _ _ _ sf => sf

/-- The register an instruction writes, if it has one: none for CMP, TSA, TSX (`40_common_alu.md` R50, R61). -/
def Instr.dest (i : Instr) : Option Reg :=
  match i.shape with
  | .imm op rD _ _ | .short op rD _ _ _ => if op.isTest then none else some rD
  | .reg _ rD _ _ _ _ => rD

/-- The registers an instruction reads (`40_common_alu.md` R50). LOAD in the immediate formats reads none
(`43_load.md` R91, R92). -/
def Instr.sources (i : Instr) : List Reg :=
  match i.shape with
  | .imm op rD _ _ | .short op rD _ _ _ => if op = .load then [] else [rD]
  | .reg _ _ rS1 rS2 _ _ => rS1.toList ++ [rS2]

/-- The same instruction under another status override. -/
def Instr.withSf (i : Instr) (sf : SF) : Instr :=
  match i with
  | .addImm rD k _ => .addImm rD k sf
  | .addShort rD k sh _ => .addShort rD k sh sf
  | .addReg rD rS1 rS2 sh _ => .addReg rD rS1 rS2 sh sf
  | .adcImm rD k _ => .adcImm rD k sf
  | .adcShort rD k sh _ => .adcShort rD k sh sf
  | .adcReg rD rS1 rS2 sh _ => .adcReg rD rS1 rS2 sh sf
  | .subImm rD k _ => .subImm rD k sf
  | .subShort rD k sh _ => .subShort rD k sh sf
  | .subReg rD rS1 rS2 sh _ => .subReg rD rS1 rS2 sh sf
  | .sbcImm rD k _ => .sbcImm rD k sf
  | .sbcShort rD k sh _ => .sbcShort rD k sh sf
  | .sbcReg rD rS1 rS2 sh _ => .sbcReg rD rS1 rS2 sh sf
  | .andImm rD k _ => .andImm rD k sf
  | .andShort rD k sh _ => .andShort rD k sh sf
  | .andReg rD rS1 rS2 sh _ => .andReg rD rS1 rS2 sh sf
  | .orrImm rD k _ => .orrImm rD k sf
  | .orrShort rD k sh _ => .orrShort rD k sh sf
  | .orrReg rD rS1 rS2 sh _ => .orrReg rD rS1 rS2 sh sf
  | .xorImm rD k _ => .xorImm rD k sf
  | .xorShort rD k sh _ => .xorShort rD k sh sf
  | .xorReg rD rS1 rS2 sh _ => .xorReg rD rS1 rS2 sh sf
  | .loadImm rD k _ => .loadImm rD k sf
  | .loadShort rD k sh _ => .loadShort rD k sh sf
  | .loadReg rD rS sh _ => .loadReg rD rS sh sf
  | .cmpImm rS k _ => .cmpImm rS k sf
  | .cmpShort rS k sh _ => .cmpShort rS k sh sf
  | .cmpReg rS1 rS2 sh _ => .cmpReg rS1 rS2 sh sf
  | .tsaImm rS k _ => .tsaImm rS k sf
  | .tsaShort rS k sh _ => .tsaShort rS k sh sf
  | .tsaReg rS1 rS2 sh _ => .tsaReg rS1 rS2 sh sf
  | .tsxImm rS k _ => .tsxImm rS k sf
  | .tsxShort rS k sh _ => .tsxShort rS k sh sf
  | .tsxReg rS1 rS2 sh _ => .tsxReg rS1 rS2 sh sf

end Sys2Proof
end

