-- ==== Sys2Proof/WellFormed.lean ====
section
/-! DEFINITION. The closed list of refusal reasons (`60_exceptions.md` R110) and the checks on an abstract
instruction (`30_encoding.md` R30): which terms of the grammar the spec admits. -/

namespace Sys2Proof

/-- The refusal reasons, in the order of the table of `60_exceptions.md` R110. None is a hardware trap: the spec
gives the word or term no meaning. Every one is SAFE (R110: "every one errs toward unprovable"). -/
inductive RefuseReason
  /-- Decode step 1: the opcode is not one of the 33 (R39, R42). Safe. -/
  | opcodeNotInSource
  /-- Decode step 2: the `cond` field is not 0 (R37). Safe. -/
  | conditionNotInSource
  /-- Decode step 3: the `sf` field is 3 (R36). Safe. -/
  | statusSourceReserved
  /-- Decode step 5: a used register field holds 0 or 8..15 (R35). Safe. -/
  | registerNotInScope
  /-- Decode step 5: `shsel` is 1, a shift amount held in a register (R38). Safe. -/
  | registerShiftAmountNotInSource
  /-- Decode step 5: `shtype` is 2..7 (R38). Safe. -/
  | shiftTypeNotInSource
  /-- Decode step 5: `shtype` is 0 and `shcnt` is not 0 (R38). Safe. -/
  | shiftCountWithoutShift
  /-- Decode step 5: an unused field of CMPR, TSAR, TSXR or LOAD register form is not 0 (R40). Safe. -/
  | unusedFieldNonZero
  /-- Decode step 6 and the meanings: Immediate format with `[S]` (R30, D10). Safe. -/
  | immFormatHasNoShifter
  /-- Decode step 6 and the meanings: LOAD with `[S]` (R30, D11). Safe. -/
  | loadShiftFlagsNotInSource
  /-- The meanings: LOAD register form with a shift, given as a term; no word reaches it (R30, R39, D12). Safe. -/
  | loadRegShiftNotInSource
deriving DecidableEq, Repr

/-- The first of the three refusals of R30 that applies to an abstract instruction, in the order of R30's
table; none if the spec admits it. -/
def Instr.refusal (i : Instr) : Option RefuseReason :=
  match i.shape with
  | .imm _ _ _ sf => if sf = .s then some .immFormatHasNoShifter else none
  | .short op _ _ _ sf => if op = .load ∧ sf = .s then some .loadShiftFlagsNotInSource else none
  | .reg op _ _ _ sh sf =>
    if op = .load ∧ sf = .s then some .loadShiftFlagsNotInSource
    else if op = .load ∧ sh ≠ .noShift then some .loadRegShiftNotInSource
    else none

/-- An instruction the spec admits: none of R30's three refusals applies. -/
abbrev Instr.WellFormed (i : Instr) : Prop := i.refusal = none

end Sys2Proof
end

