-- ==== Sys2Proof/Decode.lean ====
section
/-! DEFINITION. The binary layout of `30_encoding.md` R31 to R43: the opcode table, the decoder in the order of
R39, and the encoder. The layout is the spec's decision D1 and a separate transport layer: no
meaning uses it. UNVERIFIED, unsafe for words of real hardware, log entry 7. -/

namespace Sys2Proof

/-- The two opcode bits that select the format (R32). -/
def Format.code : Format → BitVec 2
  | .imm => 0b00#2
  | .short => 0b10#2
  | .reg => 0b11#2

/-- The format that `opcode[5:4]` selects; 01 is used by no instruction of the chapter (R32). -/
def Format.ofCode (b : BitVec 2) : Option Format :=
  match b.toNat with
  | 0 => some .imm
  | 2 => some .short
  | 3 => some .reg
  | _ => none

/-- The operation number (R32's table). -/
def Op.opnum : Op → BitVec 4
  | .add => 0x0#4
  | .adc => 0x1#4
  | .sub => 0x2#4
  | .sbc => 0x3#4
  | .and => 0x4#4
  | .orr => 0x5#4
  | .xor => 0x6#4
  | .load => 0x7#4
  | .cmp => 0xA#4
  | .tsa => 0xC#4
  | .tsx => 0xE#4

/-- The operation of an operation number; 0x8, 0x9, 0xB, 0xD and 0xF are not defined (R32, R42). -/
def Op.ofOpnum (n : BitVec 4) : Option Op :=
  match n.toNat with
  | 0x0 => some .add
  | 0x1 => some .adc
  | 0x2 => some .sub
  | 0x3 => some .sbc
  | 0x4 => some .and
  | 0x5 => some .orr
  | 0x6 => some .xor
  | 0x7 => some .load
  | 0xA => some .cmp
  | 0xC => some .tsa
  | 0xE => some .tsx
  | _ => none

/-- `opcode = fmt_base + opnum` (R32): the format's two bits above the operation's four. -/
def opcodeOf (f : Format) (op : Op) : BitVec 6 := f.code ++ op.opnum

/-- The format and operation of an opcode, if it is one of the 33 (R32, R41, R42). -/
def lookupOpcode (opc : BitVec 6) : Option (Format × Op) :=
  match Format.ofCode (opc.extractLsb' 4 2), Op.ofOpnum (opc.extractLsb' 0 4) with
  | some f, some op => some (f, op)
  | _, _ => none

/-- The register field value of a register (R35, D2). -/
def Reg.code : Reg → BitVec 4
  | .r1 => 1#4
  | .r2 => 2#4
  | .r3 => 3#4
  | .r4 => 4#4
  | .r5 => 5#4
  | .r6 => 6#4
  | .r7 => 7#4

/-- The register a field value names; 0 and 8 to 15 name none (R35). -/
def Reg.ofCode (b : BitVec 4) : Except RefuseReason Reg :=
  match b.toNat with
  | 1 => .ok .r1
  | 2 => .ok .r2
  | 3 => .ok .r3
  | 4 => .ok .r4
  | 5 => .ok .r5
  | 6 => .ok .r6
  | 7 => .ok .r7
  | _ => .error .registerNotInScope

/-- The field value of a status override (R36, D3). -/
def SF.code : SF → BitVec 2
  | .a => 0#2
  | .s => 1#2
  | .n => 2#2

/-- The status override of a field value; 3 is not defined (R36). -/
def SF.ofCode (b : BitVec 2) : Except RefuseReason SF :=
  match b.toNat with
  | 0 => .ok .a
  | 1 => .ok .s
  | 2 => .ok .n
  | _ => .error .statusSourceReserved

/-- `shtype` of a shift operand (R38). -/
def Shift.typeCode : Shift → BitVec 3
  | .noShift => 0#3
  | .lsl _ => 1#3

/-- `shcnt` of a shift operand (R38). -/
def Shift.count : Shift → BitVec 4
  | .noShift => 0#4
  | .lsl n => n

/-- The shift operand of the fields `shsel`, `shtype`, `shcnt` (R38), checked in that table's order. -/
def Shift.ofFields (shsel : BitVec 1) (shtype : BitVec 3) (shcnt : BitVec 4) : Except RefuseReason Shift :=
  if shsel ≠ 0#1 then .error .registerShiftAmountNotInSource
  else
    match shtype.toNat with
    | 0 => if shcnt = 0#4 then .ok .noShift else .error .shiftCountWithoutShift
    | 1 => .ok (.lsl shcnt)
    | _ => .error .shiftTypeNotInSource

/-- The fields of an instruction word (R31). -/
def fieldOpcode (w : InstrWord) : BitVec 6 := w.extractLsb' 26 6
/-- Bits 25:22. -/
def fieldRD (w : InstrWord) : BitVec 4 := w.extractLsb' 22 4
/-- Bits 21:6, Immediate format. -/
def fieldImm16 (w : InstrWord) : Word := w.extractLsb' 6 16
/-- Bits 21:14, Short Immediate format. -/
def fieldImm8 (w : InstrWord) : Byte := w.extractLsb' 14 8
/-- Bits 21:18, Register format. -/
def fieldRS1 (w : InstrWord) : BitVec 4 := w.extractLsb' 18 4
/-- Bits 17:14, Register format. -/
def fieldRS2 (w : InstrWord) : BitVec 4 := w.extractLsb' 14 4
/-- Bit 13. -/
def fieldShsel (w : InstrWord) : BitVec 1 := w.extractLsb' 13 1
/-- Bits 12:10. -/
def fieldShtype (w : InstrWord) : BitVec 3 := w.extractLsb' 10 3
/-- Bits 9:6. -/
def fieldShcnt (w : InstrWord) : BitVec 4 := w.extractLsb' 6 4
/-- Bits 5:4. -/
def fieldSf (w : InstrWord) : BitVec 2 := w.extractLsb' 4 2
/-- Bits 3:0. -/
def fieldCond (w : InstrWord) : BitVec 4 := w.extractLsb' 0 4

/-- The Immediate-format instruction of an operation (R30, R41). -/
def Instr.ofImm (op : Op) (rD : Reg) (k : Word) (sf : SF) : Instr :=
  match op with
  | .add => .addImm rD k sf
  | .adc => .adcImm rD k sf
  | .sub => .subImm rD k sf
  | .sbc => .sbcImm rD k sf
  | .and => .andImm rD k sf
  | .orr => .orrImm rD k sf
  | .xor => .xorImm rD k sf
  | .load => .loadImm rD k sf
  | .cmp => .cmpImm rD k sf
  | .tsa => .tsaImm rD k sf
  | .tsx => .tsxImm rD k sf

/-- The Short-Immediate-format instruction of an operation (R30, R41). -/
def Instr.ofShort (op : Op) (rD : Reg) (k : Byte) (sh : Shift) (sf : SF) : Instr :=
  match op with
  | .add => .addShort rD k sh sf
  | .adc => .adcShort rD k sh sf
  | .sub => .subShort rD k sh sf
  | .sbc => .sbcShort rD k sh sf
  | .and => .andShort rD k sh sf
  | .orr => .orrShort rD k sh sf
  | .xor => .xorShort rD k sh sf
  | .load => .loadShort rD k sh sf
  | .cmp => .cmpShort rD k sh sf
  | .tsa => .tsaShort rD k sh sf
  | .tsx => .tsxShort rD k sh sf

/-- A Register-format word with a destination and two sources: the used fields are checked in the order `rD`,
`rS1`, `rS2` (R39 step 5). -/
def decodeReg3 (mk : Reg → Reg → Reg → Shift → SF → Instr) (w : InstrWord) (sh : Shift) (sf : SF) :
    Except RefuseReason Instr := do
  let rD ← Reg.ofCode (fieldRD w)
  let rS1 ← Reg.ofCode (fieldRS1 w)
  let rS2 ← Reg.ofCode (fieldRS2 w)
  .ok (mk rD rS1 rS2 sh sf)

/-- A Register-format word of CMP, TSA or TSX: used fields `rS1`, `rS2`, then the unused `rD` must be 0
(R39 step 5, R40). -/
def decodeRegTest (mk : Reg → Reg → Shift → SF → Instr) (w : InstrWord) (sh : Shift) (sf : SF) :
    Except RefuseReason Instr := do
  let rS1 ← Reg.ofCode (fieldRS1 w)
  let rS2 ← Reg.ofCode (fieldRS2 w)
  if fieldRD w = 0#4 then .ok (mk rS1 rS2 sh sf) else .error .unusedFieldNonZero

/-- A LOAD register-form word: used fields `rD`, `rS2`, then the unused `rS1` and shift fields must be 0
(R39 step 5, R40, `90_conflicts.md` C9). -/
def decodeRegLoad (w : InstrWord) (sh : Shift) (sf : SF) : Except RefuseReason Instr := do
  let rD ← Reg.ofCode (fieldRD w)
  let rS ← Reg.ofCode (fieldRS2 w)
  if fieldRS1 w = 0#4 ∧ sh = .noShift then .ok (.loadReg rD rS sh sf) else .error .unusedFieldNonZero

/-- Register-format words (R39 step 5, after the shift fields). -/
def decodeReg (op : Op) (w : InstrWord) (sh : Shift) (sf : SF) : Except RefuseReason Instr :=
  match op with
  | .add => decodeReg3 .addReg w sh sf
  | .adc => decodeReg3 .adcReg w sh sf
  | .sub => decodeReg3 .subReg w sh sf
  | .sbc => decodeReg3 .sbcReg w sh sf
  | .and => decodeReg3 .andReg w sh sf
  | .orr => decodeReg3 .orrReg w sh sf
  | .xor => decodeReg3 .xorReg w sh sf
  | .load => decodeRegLoad w sh sf
  | .cmp => decodeRegTest .cmpReg w sh sf
  | .tsa => decodeRegTest .tsaReg w sh sf
  | .tsx => decodeRegTest .tsxReg w sh sf

/-- R39 steps 4 and 5: extract the fields of the format and check them. -/
def decodeFields (f : Format) (op : Op) (w : InstrWord) (sf : SF) : Except RefuseReason Instr :=
  match f with
  | .imm => do
    let rD ← Reg.ofCode (fieldRD w)
    .ok (.ofImm op rD (fieldImm16 w) sf)
  | .short => do
    let sh ← Shift.ofFields (fieldShsel w) (fieldShtype w) (fieldShcnt w)
    let rD ← Reg.ofCode (fieldRD w)
    .ok (.ofShort op rD (fieldImm8 w) sh sf)
  | .reg => do
    let sh ← Shift.ofFields (fieldShsel w) (fieldShtype w) (fieldShcnt w)
    decodeReg op w sh sf

/-- R39 step 6: the three refusals of R30. -/
def checkTerm (i : Instr) : Except RefuseReason Instr :=
  match i.refusal with
  | some r => .error r
  | none => .ok i

/-- Decoding an instruction word (R39): total, and the first failing check names the refusal. -/
def decode (w : InstrWord) : Except RefuseReason Instr :=
  match lookupOpcode (fieldOpcode w) with
  | none => .error .opcodeNotInSource
  | some (f, op) =>
    if fieldCond w ≠ 0#4 then .error .conditionNotInSource
    else do
      let sf ← SF.ofCode (fieldSf w)
      let i ← decodeFields f op w sf
      checkTerm i

/-- A register field an instruction may leave unused holds 0 (R40). -/
def Reg.codeOrZero : Option Reg → BitVec 4
  | some r => r.code
  | none => 0#4

/-- The Immediate-format word: opcode, rD, imm16, sf, cond = 0 (R31). -/
def immWord (op : Op) (rD : Reg) (k : Word) (sf : SF) : InstrWord :=
  opcodeOf .imm op ++ rD.code ++ k ++ sf.code ++ 0#4

/-- The Short-Immediate-format word: opcode, rD, imm8, shsel = 0, shtype, shcnt, sf, cond = 0 (R31). -/
def shortWord (op : Op) (rD : Reg) (k : Byte) (sh : Shift) (sf : SF) : InstrWord :=
  opcodeOf .short op ++ rD.code ++ k ++ 0#1 ++ sh.typeCode ++ sh.count ++ sf.code ++ 0#4

/-- The Register-format word: opcode, rD, rS1, rS2, shsel = 0, shtype, shcnt, sf, cond = 0 (R31). -/
def regWord (op : Op) (rD rS1 : Option Reg) (rS2 : Reg) (sh : Shift) (sf : SF) : InstrWord :=
  opcodeOf .reg op ++ Reg.codeOrZero rD ++ Reg.codeOrZero rS1 ++ rS2.code ++ 0#1 ++ sh.typeCode ++ sh.count
    ++ sf.code ++ 0#4

/-- The instruction word of an instruction (R31, R40). On instructions the spec does not admit it still names a
word, which decoding refuses. -/
def encode (i : Instr) : InstrWord :=
  match i.shape with
  | .imm op rD k sf => immWord op rD k sf
  | .short op rD k sh sf => shortWord op rD k sh sf
  | .reg op rD rS1 rS2 sh sf => regWord op rD rS1 rS2 sh sf

/-- A row of the opcode map (R41, `spec/opcode_table.json`): a word `w` with `w & mask = pattern` selects it. -/
structure OpcodeRow where
  mnemonic : String
  format : Format
  op : Op
  pattern : InstrWord
  mask : InstrWord
deriving DecidableEq, Repr

/-- The word selects the row (R41). -/
def OpcodeRow.matchesWord (row : OpcodeRow) (w : InstrWord) : Bool := w &&& row.mask == row.pattern

/-- The 33 rows of R41 with the `match` and `mask` of `spec/opcode_table.json`. -/
def opcodeTable : List OpcodeRow :=
  [ ⟨"ADDI", .imm, .add, 0x00000000#32, 0xFC00000F#32⟩,
    ⟨"ADDI", .short, .add, 0x80000000#32, 0xFC00000F#32⟩,
    ⟨"ADDR", .reg, .add, 0xC0000000#32, 0xFC00000F#32⟩,
    ⟨"ADCI", .imm, .adc, 0x04000000#32, 0xFC00000F#32⟩,
    ⟨"ADCI", .short, .adc, 0x84000000#32, 0xFC00000F#32⟩,
    ⟨"ADCR", .reg, .adc, 0xC4000000#32, 0xFC00000F#32⟩,
    ⟨"SUBI", .imm, .sub, 0x08000000#32, 0xFC00000F#32⟩,
    ⟨"SUBI", .short, .sub, 0x88000000#32, 0xFC00000F#32⟩,
    ⟨"SUBR", .reg, .sub, 0xC8000000#32, 0xFC00000F#32⟩,
    ⟨"SBCI", .imm, .sbc, 0x0C000000#32, 0xFC00000F#32⟩,
    ⟨"SBCI", .short, .sbc, 0x8C000000#32, 0xFC00000F#32⟩,
    ⟨"SBCR", .reg, .sbc, 0xCC000000#32, 0xFC00000F#32⟩ ] ++
  [ ⟨"ANDI", .imm, .and, 0x10000000#32, 0xFC00000F#32⟩,
    ⟨"ANDI", .short, .and, 0x90000000#32, 0xFC00000F#32⟩,
    ⟨"ANDR", .reg, .and, 0xD0000000#32, 0xFC00000F#32⟩,
    ⟨"ORRI", .imm, .orr, 0x14000000#32, 0xFC00000F#32⟩,
    ⟨"ORRI", .short, .orr, 0x94000000#32, 0xFC00000F#32⟩,
    ⟨"ORRR", .reg, .orr, 0xD4000000#32, 0xFC00000F#32⟩,
    ⟨"XORI", .imm, .xor, 0x18000000#32, 0xFC00000F#32⟩,
    ⟨"XORI", .short, .xor, 0x98000000#32, 0xFC00000F#32⟩,
    ⟨"XORR", .reg, .xor, 0xD8000000#32, 0xFC00000F#32⟩ ] ++
  [ ⟨"LOAD", .imm, .load, 0x1C000000#32, 0xFC00000F#32⟩,
    ⟨"LOAD", .short, .load, 0x9C000000#32, 0xFC00000F#32⟩,
    ⟨"LOAD", .reg, .load, 0xDC000000#32, 0xFC3C3FCF#32⟩ ] ++
  [ ⟨"CMPI", .imm, .cmp, 0x28000000#32, 0xFC00000F#32⟩,
    ⟨"CMPI", .short, .cmp, 0xA8000000#32, 0xFC00000F#32⟩,
    ⟨"CMPR", .reg, .cmp, 0xE8000000#32, 0xFFC0000F#32⟩,
    ⟨"TSAI", .imm, .tsa, 0x30000000#32, 0xFC00000F#32⟩,
    ⟨"TSAI", .short, .tsa, 0xB0000000#32, 0xFC00000F#32⟩,
    ⟨"TSAR", .reg, .tsa, 0xF0000000#32, 0xFFC0000F#32⟩,
    ⟨"TSXI", .imm, .tsx, 0x38000000#32, 0xFC00000F#32⟩,
    ⟨"TSXI", .short, .tsx, 0xB8000000#32, 0xFC00000F#32⟩,
    ⟨"TSXR", .reg, .tsx, 0xF8000000#32, 0xFFC0000F#32⟩ ]

/-- An instruction whose bits are `w`, numbered as `spec/opcode_table.json` numbers them: bit 0 is the least
significant bit of the one 32-bit word, and every bit above `nbits` is 0. -/
def tableWord (nbits w : Nat) : InstrWord := BitVec.ofNat 32 (w % 2 ^ nbits)

/-- The instruction the decoder reads from such a word; none where it refuses. The program store holds whole
32-bit words (`20_memory.md` R22), so no byte order comes into it. -/
def decodeTableWord (nbits w : Nat) : Option Instr := (decode (tableWord nbits w)).toOption

end Sys2Proof
end

