-- ==== Sys2Proof/Config.lean ====
section
/-! DEFINITION. The open parameters of the spec (`92_eei_decisions.md`, "Open parameters in one place").
Each is an opaque constant: nothing in Lean can say what it is, so a theorem holds whatever it is.
`PROGRAM` and `LAUNCH`, the other two open parameters, are the arguments of `Sys2Proof.Machine.State.launch`. -/

namespace Sys2Proof.Config

/-- `ShiftCV` (`40_common_alu.md` R58, D9): the C and V flags under `[S]`, a total function of the shift
operand, the unshifted first operand and the old C and V, "of which the spec asserts nothing".
DESIGN CHOICE (open in the spec, D9), safe: a claim holds for every such function. Log entry 1. -/
opaque shiftCV : Shift → Word → Bool → Bool → Bool × Bool

/-- The four flags of SR, as names (`10_state.md` R13). -/
inductive FlagName
  | n | z | c | v
deriving DecidableEq, Repr

/-- `SR_LAYOUT` (`10_state.md` R13, D20): the bit position of each flag inside SR. No rule reads it, and no
step does. Safe. Log entry 2. -/
opaque srPosition : FlagName → Nat

/-- `IFETCH_ORDER` (`20_memory.md` R22, D16): the bytes of an instruction word, lowest address first. No rule
depends on it, and no step reads it. Safe. Log entry 3. -/
opaque ifetchOrder : InstrWord → List Byte

/-- The base address of the program store (`10_state.md` R12, `20_memory.md` R21, D16). No rule depends on it.
Safe. Log entry 3. -/
opaque programBase : Nat

end Sys2Proof.Config
end

