-- ==== Sys2Proof/Machine/State.lean ====
section
/-! DEFINITION. The state of the machine (`10_state.md` section 5), the reasons a step can stop, the launch
states (`70_reset_and_hazards.md` R120, R121, R127) and the state after reset. -/

namespace Sys2Proof.Machine

/-- The seven general registers r1..r7, 16 bits each; none is hardwired (`10_state.md` R10, R11). That these are all and
that none is special is the spec's decision D21: UNVERIFIED, unsafe, log entry 14. -/
structure Regs where
  r1 : Word
  r2 : Word
  r3 : Word
  r4 : Word
  r5 : Word
  r6 : Word
  r7 : Word
deriving DecidableEq, Repr

/-- The status register SR: exactly the four one-bit flags N, Z, C, V (`10_state.md` R13); `true` is 1. -/
structure StatusRegister where
  n : Bool
  z : Bool
  c : Bool
  v : Bool
deriving DecidableEq, Repr

/-- One entry of `PROGRAM`: a whole instruction, "already a 32-bit number (under the layout of `30_encoding.md`
rule R31) or already a decoded term" (`20_memory.md` R22, D16). -/
inductive ProgramEntry
  /-- A 32-bit word, decoded by R39 when it is fetched. -/
  | word (w : InstrWord)
  /-- An abstract instruction of R30. -/
  | term (i : Instr)
deriving DecidableEq, Repr

/-- The complete state (`10_state.md` section 5), with the read-only program store `PROGRAM` that `pc` indexes
(`10_state.md` R12, `20_memory.md` R21): the machine has no data memory (R18, R20). -/
structure State where
  /-- r1..r7 (R10, R11). -/
  regs : Regs
  /-- SR (R13). -/
  sr : StatusRegister
  /-- The program position, a natural number (R12, D15). -/
  pc : Nat
  /-- `PROGRAM` (R12, R21): constant during a run (R28). -/
  program : List ProgramEntry
deriving DecidableEq, Repr

/-- Why a step stops without an instruction. The spec defines no hardware fault (`60_exceptions.md` R110); both
constructors say that there is nothing to execute, and are raised by `step` only. -/
inductive Fault
  /-- `pc = len(PROGRAM)`: no instruction is fetched and the run has ended (`10_state.md` R12,
  `70_reset_and_hazards.md` R123). Raised by `step`. SAFE: the spec says nothing of what the hardware would
  fetch next. -/
  | runEnded
  /-- `pc > len(PROGRAM)`: no run reaches such a state, and the spec gives it no step. Raised by `step`.
  SAFE (DESIGN CHOICE, log entry 6). -/
  | pcPastProgram
deriving DecidableEq, Repr

/-- Why the model gives an instruction no meaning. -/
inductive Refusal
  /-- An instruction without a meaning yet, raised by `exec`'s refused arms only. Safe. No arm uses it. -/
  | notModelled (mnemonic : String)
  /-- `refuse(reason)` of `60_exceptions.md` R110, with the reason's name; raised by decoding and, for the three
  reasons of `30_encoding.md` R30, by the meanings. SAFE: a refused word has no meaning in the spec. -/
  | refuse (reason : RefuseReason)
deriving DecidableEq, Repr

/-- The answer of a step or a meaning. -/
abbrev Result := Host.Outcome State Fault Refusal

/-- A launch state (`70_reset_and_hazards.md` R120, R121, R127): the outside world supplies `PROGRAM` and `LAUNCH`
(any register and flag values), and `pc = 0`. -/
def State.launch (program : List ProgramEntry) (regs : Regs) (sr : StatusRegister) : State :=
  { regs := regs, sr := sr, pc := 0, program := program }

/-- The machine right after reset. The spec gives `pc = 0` (R120, R121) and leaves every register and flag open
(R120: "arbitrary", and a model must not assume zero); the values 0 here are a DESIGN CHOICE, UNSAFE, log entry 4,
and no statement rests on them. No program is loaded: the outside world supplies it (R127, log entry 5). -/
def State.reset : State :=
  .launch [] { r1 := 0#16, r2 := 0#16, r3 := 0#16, r4 := 0#16, r5 := 0#16, r6 := 0#16, r7 := 0#16 }
    { n := false, z := false, c := false, v := false }

end Sys2Proof.Machine
end

