-- ==== Sys2Proof/Machine/Operands.lean ====
section
/-! DEFINITION. The value primitives of `00_scope.md` R7 and the operand forms of `40_common_alu.md` R50 to R52. -/

namespace Sys2Proof.Machine

/-- `trunc_16(n) = n mod 65536`, for any integer (`00_scope.md` R7). -/
def trunc16 (n : Int) : Word := BitVec.ofInt 16 n

/-- `sval(v)`, the signed reading of a 16-bit value (`00_scope.md` R7). -/
def sval (v : Word) : Int := if v.toNat < 32768 then v.toNat else (v.toNat : Int) - 65536

/-- A bit as a number, 0 or 1. -/
def bitVal (b : Bool) : Nat := if b then 1 else 0

/-- `zext_16(v)` of an 8-bit constant (`00_scope.md` R7). -/
def zext16 (v : Byte) : Word := v.setWidth 16

/-- `LSL16(v, n) = trunc_16(v * 2^n)` (`40_common_alu.md` R52). That bits moved past bit 15 are lost is the spec's
decision D23: UNVERIFIED, unsafe, log entry 15. -/
def lsl16 (v : Word) (n : BitVec 4) : Word := trunc16 (v.toNat * 2 ^ n.toNat)

/-- The shifted operand (`40_common_alu.md` R51). -/
def shifted (v : Word) (sh : Shift) : Word :=
  match sh with
  | .noShift => v
  | .lsl n => lsl16 v n

/-- `operand2` of the Immediate format (`30_encoding.md` R33): the constant as it stands. -/
def immOperand (imm16 : Word) : Word := imm16

/-- `operand2` of the Short Immediate format (`30_encoding.md` R34): the constant zero-extended, the spec's decision D7.
UNVERIFIED, unsafe for constants 0x80 to 0xFF, log entry 9. -/
def shortOperand (imm8 : Byte) : Word := zext16 imm8

end Sys2Proof.Machine
end

