-- ==== Sys2Proof/Machine/Flags.lean ====
section
/-! DEFINITION. What the ALU computes (`40_common_alu.md` R53 to R56) and how the status override steers the
flags (R57 to R60). -/

namespace Sys2Proof.Machine

/-- What an ALU operation returns: the 16-bit result and the C and V flags it reports (R54, R55). -/
structure AluOut where
  result : Word
  carry : Bool
  overflow : Bool
deriving DecidableEq, Repr

/-- An ALU operation: operand1, operand2 and the old `SR.C` (R61's `compute`). -/
abbrev AluFn := Word → Word → Bool → AluOut

/-- The exact signed value lies outside the 16-bit signed range (R54, R55). -/
def signedOverflow (n : Int) : Bool := decide (n < -32768 ∨ n > 32767)

/-- `AddC(a, b, cin)` (R54). The exact formulas of C and V are the spec's own derivation: UNVERIFIED, unsafe, log entry
16. -/
def addC (a b : Word) (cin : Bool) : AluOut :=
  let sum := a.toNat + b.toNat + bitVal cin
  let ssum := sval a + sval b + bitVal cin
  { result := trunc16 sum
    carry := decide (sum ≥ 65536)
    overflow := signedOverflow ssum }

/-- `SubB(a, b, bin)` (R55); its carry is NOT(borrow). The exact formulas are the spec's own derivation: UNVERIFIED, unsafe,
log entry 16. -/
def subB (a b : Word) (bin : Bool) : AluOut :=
  let diff : Int := (a.toNat : Int) - b.toNat - bitVal bin
  let borrow := decide (diff < 0)
  let sdiff := sval a - sval b - bitVal bin
  { result := trunc16 diff
    carry := !borrow
    overflow := signedOverflow sdiff }

/-- A logical result clears C and V (R57, `10_state.md` R14). -/
def logical (result : Word) : AluOut := { result := result, carry := false, overflow := false }

/-- ADD: `result = operand1 + operand2` (R54 with `cin = 0`). -/
def aluAdd : AluFn := fun a b _ => addC a b false

/-- ADC: `result = operand1 + operand2 + SR.C` (R54 with `cin = SR.C`). -/
def aluAdc : AluFn := fun a b c => addC a b c

/-- SUB and CMP: `result = operand1 - operand2` (R55 with `bin = 0`). -/
def aluSub : AluFn := fun a b _ => subB a b false

/-- SBC: `result = operand1 - operand2 - (1 - SR.C)` (R55 with `bin = 1 - SR.C`). -/
def aluSbc : AluFn := fun a b c => subB a b (!c)

/-- AND and TSA (R56). -/
def aluAnd : AluFn := fun a b _ => logical (a &&& b)

/-- ORR (R56). -/
def aluOrr : AluFn := fun a b _ => logical (a ||| b)

/-- XOR and TSX (R56). -/
def aluXor : AluFn := fun a b _ => logical (a ^^^ b)

/-- `sf = A`: the four flags from the ALU (R57). -/
def flagsFromAlu (out : AluOut) : StatusRegister :=
  { n := out.result.msb, z := out.result == 0#16, c := out.carry, v := out.overflow }

/-- `sf = S`: N and Z from the shift result, C and V from the open parameter `ShiftCV` (R58, D9). C and V are open: safe,
log entry 1. N and Z are the spec's decision: UNVERIFIED, unsafe, log entry 10. -/
def flagsFromShift (sh : Shift) (op1raw : Word) (old : StatusRegister) : StatusRegister :=
  let shres := shifted op1raw sh
  let cv := Config.shiftCV sh op1raw old.c old.v
  { n := shres.msb, z := shres == 0#16, c := cv.1, v := cv.2 }

/-- The status override (R57 to R59). -/
def updateFlags (sf : SF) (out : AluOut) (sh : Shift) (op1raw : Word) (old : StatusRegister) : StatusRegister :=
  match sf with
  | .a => flagsFromAlu out
  | .s => flagsFromShift sh op1raw old
  | .n => old

end Sys2Proof.Machine
end

