-- ==== Sys2Proof/Machine/Ops.lean ====
section
/-! DEFINITION. The named operations over registers, flags and the program store, and the common shape of a step
(`40_common_alu.md` R61). The spec defines no exception, no trap entry and no return (`60_exceptions.md` R110,
R114, R115), so there is none to take here. -/

namespace Sys2Proof.Machine

/-- `x[i]`: read a general register (`00_scope.md` R7). -/
def State.getReg (s : State) (r : Reg) : Word :=
  match r with
  | .r1 => s.regs.r1
  | .r2 => s.regs.r2
  | .r3 => s.regs.r3
  | .r4 => s.regs.r4
  | .r5 => s.regs.r5
  | .r6 => s.regs.r6
  | .r7 => s.regs.r7

/-- The register file with one register written whole (`10_state.md` R10). -/
def Regs.write (x : Regs) (r : Reg) (v : Word) : Regs :=
  match r with
  | .r1 => { x with r1 := v }
  | .r2 => { x with r2 := v }
  | .r3 => { x with r3 := v }
  | .r4 => { x with r4 := v }
  | .r5 => { x with r5 := v }
  | .r6 => { x with r6 := v }
  | .r7 => { x with r7 := v }

/-- `x[i] <- v`: write a general register (`00_scope.md` R7). -/
def State.setReg (s : State) (r : Reg) (v : Word) : State := { s with regs := s.regs.write r v }

/-- Write the destination, if the operation has one (R61: CMP, TSA and TSX have none). -/
def State.setDest (s : State) (dest : Option Reg) (v : Word) : State :=
  match dest with
  | some r => s.setReg r v
  | none => s

/-- Write the four flags (`SR.F <- b`). -/
def State.setSr (s : State) (sr : StatusRegister) : State := { s with sr := sr }

/-- `pc <- pc + 1`, the end of every instruction (`10_state.md` R12), the spec's decision D15: UNVERIFIED, unsafe, log
entry 12. -/
def State.advance (s : State) : State := { s with pc := s.pc + 1 }

/-- A refused instruction does nothing at all (`60_exceptions.md` R114). Safe, log entry 11. -/
def refuse (r : RefuseReason) : Result := .refused (.refuse r)

/-- R61, the common shape of a step, on an admitted instruction: all reads come from the state before it (R8). -/
def aluStep (f : AluFn) (dest : Option Reg) (op1raw : Word) (sh : Shift) (operand2 : Word) (sf : SF) (s : State) :
    State :=
  let out := f (shifted op1raw sh) operand2 s.sr.c
  ((s.setDest dest out.result).setSr (updateFlags sf out sh op1raw s.sr)).advance

/-- An Immediate-format instruction other than LOAD (R50, first row). The format has no shifter, so `[S]` is
refused (`30_encoding.md` R30, D10). -/
def aluImm (f : AluFn) (dest : Option Reg) (src : Reg) (imm16 : Word) (sf : SF) (s : State) : Result :=
  match sf with
  | .s => refuse .immFormatHasNoShifter
  | .a | .n => .next (aluStep f dest (s.getReg src) .noShift (immOperand imm16) sf s)

/-- A Short-Immediate-format instruction other than LOAD (R50, second row). -/
def aluShort (f : AluFn) (dest : Option Reg) (src : Reg) (imm8 : Byte) (sh : Shift) (sf : SF) (s : State) : Result :=
  .next (aluStep f dest (s.getReg src) sh (shortOperand imm8) sf s)

/-- A Register-format instruction other than LOAD (R50, third row). -/
def aluReg (f : AluFn) (dest : Option Reg) (rS1 rS2 : Reg) (sh : Shift) (sf : SF) (s : State) : Result :=
  .next (aluStep f dest (s.getReg rS1) sh (s.getReg rS2) sf s)

/-- LOAD writes its destination and no flag (R60, `43_load.md`). -/
def loadStep (rD : Reg) (v : Word) (s : State) : State := (s.setReg rD v).advance

/-- What stands at the program position (`10_state.md` R12): an instruction, a refused word, or nothing to fetch. -/
inductive Fetched
  | instr (i : Instr)
  | refused (r : RefuseReason)
  | stop (f : Fault)
deriving DecidableEq, Repr

/-- The instruction an entry of the program stands for: a word is decoded (R39), a term is taken as it is and its
meaning makes R30's checks (DESIGN CHOICE, safe, log entry 17). -/
def decodeEntry (e : ProgramEntry) : Except RefuseReason Instr :=
  match e with
  | .word w => decode w
  | .term i => .ok i

/-- Instruction fetch: `PROGRAM[pc]` (`10_state.md` R12, `20_memory.md` R22). At `pc = len` nothing is fetched and
the run has ended (`70_reset_and_hazards.md` R123). -/
def State.fetch (s : State) : Fetched :=
  match s.program[s.pc]? with
  | some e =>
    match decodeEntry e with
    | .ok i => .instr i
    | .error r => .refused r
  | none => if s.pc = s.program.length then .stop .runEnded else .stop .pcPastProgram

/-- `program` with `e` as its entry number `k`; entries missing before it are all-zero words, which decoding
refuses (log entry 5). -/
def placeEntry (program : List ProgramEntry) (k : Nat) (e : ProgramEntry) : List ProgramEntry :=
  match program, k with
  | [], 0 => [e]
  | [], k + 1 => .word 0#32 :: placeEntry [] k e
  | _ :: rest, 0 => e :: rest
  | x :: rest, k + 1 => x :: placeEntry rest k e

/-- The address an instruction would have, `base + 4 * pc` (`10_state.md` R12): no rule depends on it. -/
def State.instrAddress (s : State) : Nat := Config.programBase + 4 * s.pc

/-- The bytes of the word at `pc`, lowest address first, under the open `IFETCH_ORDER` (`20_memory.md` R22): no rule
depends on it. -/
def State.instrBytes (s : State) : Option (List Byte) :=
  match s.program[s.pc]? with
  | some (.word w) => some (Config.ifetchOrder w)
  | some (.term _) | none => none

/-- One flag of SR by name (`10_state.md` R13). -/
def StatusRegister.flag (sr : StatusRegister) (f : Config.FlagName) : Bool :=
  match f with
  | .n => sr.n
  | .z => sr.z
  | .c => sr.c
  | .v => sr.v

/-- The known bits of SR, each with its position under the open `SR_LAYOUT` (`10_state.md` R13): no rule depends on
it, and no ALU instruction reads SR as a whole. -/
def StatusRegister.bits (sr : StatusRegister) : List (Nat × Bool) :=
  [.n, .z, .c, .v].map fun f => (Config.srPosition f, sr.flag f)

end Sys2Proof.Machine
end

