-- ==== Sys2Proof/Machine/Arithmetic.lean ====
section
/-! DEFINITION. The arithmetic instructions ADD, ADC, SUB, SBC (`41_arithmetic.md` R70 to R81). -/

namespace Sys2Proof.Machine

/-- ADDI, Immediate format (R70): `rD = rD + imm16`. -/
def execAddImm (rD : Reg) (imm16 : Word) (sf : SF) (s : State) : Result :=
  aluImm aluAdd (some rD) rD imm16 sf s

/-- ADDI, Short Immediate format (R71): `rD = (rD << shift) + imm8`. -/
def execAddShort (rD : Reg) (imm8 : Byte) (sh : Shift) (sf : SF) (s : State) : Result :=
  aluShort aluAdd (some rD) rD imm8 sh sf s

/-- ADDR, Register format (R72): `rD = (rS1 << shift) + rS2`. -/
def execAddReg (rD rS1 rS2 : Reg) (sh : Shift) (sf : SF) (s : State) : Result :=
  aluReg aluAdd (some rD) rS1 rS2 sh sf s

/-- ADCI, Immediate format (R73): `rD = rD + imm16 + C`. -/
def execAdcImm (rD : Reg) (imm16 : Word) (sf : SF) (s : State) : Result :=
  aluImm aluAdc (some rD) rD imm16 sf s

/-- ADCI, Short Immediate format (R74): `rD = (rD << shift) + imm8 + C`. -/
def execAdcShort (rD : Reg) (imm8 : Byte) (sh : Shift) (sf : SF) (s : State) : Result :=
  aluShort aluAdc (some rD) rD imm8 sh sf s

/-- ADCR, Register format (R75): `rD = (rS1 << shift) + rS2 + C`. -/
def execAdcReg (rD rS1 rS2 : Reg) (sh : Shift) (sf : SF) (s : State) : Result :=
  aluReg aluAdc (some rD) rS1 rS2 sh sf s

/-- SUBI, Immediate format (R76): `rD = rD - imm16`. -/
def execSubImm (rD : Reg) (imm16 : Word) (sf : SF) (s : State) : Result :=
  aluImm aluSub (some rD) rD imm16 sf s

/-- SUBI, Short Immediate format (R77): `rD = (rD << shift) - imm8`. -/
def execSubShort (rD : Reg) (imm8 : Byte) (sh : Shift) (sf : SF) (s : State) : Result :=
  aluShort aluSub (some rD) rD imm8 sh sf s

/-- SUBR, Register format (R78): `rD = (rS1 << shift) - rS2`. -/
def execSubReg (rD rS1 rS2 : Reg) (sh : Shift) (sf : SF) (s : State) : Result :=
  aluReg aluSub (some rD) rS1 rS2 sh sf s

/-- SBCI, Immediate format (R79): `rD = rD - imm16 - !C`. -/
def execSbcImm (rD : Reg) (imm16 : Word) (sf : SF) (s : State) : Result :=
  aluImm aluSbc (some rD) rD imm16 sf s

/-- SBCI, Short Immediate format (R80): `rD = (rD << shift) - imm8 - !C`. -/
def execSbcShort (rD : Reg) (imm8 : Byte) (sh : Shift) (sf : SF) (s : State) : Result :=
  aluShort aluSbc (some rD) rD imm8 sh sf s

/-- SBCR, Register format (R81): `rD = (rS1 << shift) - rS2 - !C`. -/
def execSbcReg (rD rS1 rS2 : Reg) (sh : Shift) (sf : SF) (s : State) : Result :=
  aluReg aluSbc (some rD) rS1 rS2 sh sf s

end Sys2Proof.Machine
end

