-- ==== Sys2Proof/Machine/Load.lean ====
section
/-! DEFINITION. The data movement instruction LOAD (`43_load.md` R91 to R93). It is not a memory load (`20_memory.md`
R20); it writes no flag, and `[S]` is refused in every format (`40_common_alu.md` R60, D11). -/

namespace Sys2Proof.Machine

/-- LOAD, Immediate format (R91): `rD = imm16`. With `[S]` the Immediate-format check comes first (R30). -/
def execLoadImm (rD : Reg) (imm16 : Word) (sf : SF) (s : State) : Result :=
  match sf with
  | .s => refuse .immFormatHasNoShifter
  | .a | .n => .next (loadStep rD (immOperand imm16) s)

/-- LOAD, Short Immediate format (R92): `rD = imm8 << shift`. The CONSTANT is shifted, and `rD` is not read
(`90_conflicts.md` C8). UNVERIFIED, unsafe, log entry 18. -/
def execLoadShort (rD : Reg) (imm8 : Byte) (sh : Shift) (sf : SF) (s : State) : Result :=
  match sf with
  | .s => refuse .loadShiftFlagsNotInSource
  | .a | .n => .next (loadStep rD (shifted (shortOperand imm8) sh) s)

/-- LOAD, Register format (R93): `rD = rS`. A term with a shift is refused (R30, D12). -/
def execLoadReg (rD rS : Reg) (sh : Shift) (sf : SF) (s : State) : Result :=
  match sf, sh with
  | .s, _ => refuse .loadShiftFlagsNotInSource
  | _, .lsl _ => refuse .loadRegShiftNotInSource
  | _, .noShift => .next (loadStep rD (s.getReg rS) s)

end Sys2Proof.Machine
end

