-- ==== Sys2Proof/Machine/Logical.lean ====
section
/-! DEFINITION. The logical instructions AND, ORR, XOR (`42_logical.md` R82 to R90). -/

namespace Sys2Proof.Machine

/-- ANDI, Immediate format (R82): `rD = rD & imm16`. -/
def execAndImm (rD : Reg) (imm16 : Word) (sf : SF) (s : State) : Result :=
  aluImm aluAnd (some rD) rD imm16 sf s

/-- ANDI, Short Immediate format (R83): `rD = (rD << shift) & imm8`. -/
def execAndShort (rD : Reg) (imm8 : Byte) (sh : Shift) (sf : SF) (s : State) : Result :=
  aluShort aluAnd (some rD) rD imm8 sh sf s

/-- ANDR, Register format (R84): `rD = (rS1 << shift) & rS2`. -/
def execAndReg (rD rS1 rS2 : Reg) (sh : Shift) (sf : SF) (s : State) : Result :=
  aluReg aluAnd (some rD) rS1 rS2 sh sf s

/-- ORRI, Immediate format (R85): `rD = rD | imm16`. -/
def execOrrImm (rD : Reg) (imm16 : Word) (sf : SF) (s : State) : Result :=
  aluImm aluOrr (some rD) rD imm16 sf s

/-- ORRI, Short Immediate format (R86): `rD = (rD << shift) | imm8`. -/
def execOrrShort (rD : Reg) (imm8 : Byte) (sh : Shift) (sf : SF) (s : State) : Result :=
  aluShort aluOrr (some rD) rD imm8 sh sf s

/-- ORRR, Register format (R87): `rD = (rS1 << shift) | rS2`. -/
def execOrrReg (rD rS1 rS2 : Reg) (sh : Shift) (sf : SF) (s : State) : Result :=
  aluReg aluOrr (some rD) rS1 rS2 sh sf s

/-- XORI, Immediate format (R88): `rD = rD ^ imm16`. -/
def execXorImm (rD : Reg) (imm16 : Word) (sf : SF) (s : State) : Result :=
  aluImm aluXor (some rD) rD imm16 sf s

/-- XORI, Short Immediate format (R89): `rD = (rD << shift) ^ imm8`. -/
def execXorShort (rD : Reg) (imm8 : Byte) (sh : Shift) (sf : SF) (s : State) : Result :=
  aluShort aluXor (some rD) rD imm8 sh sf s

/-- XORR, Register format (R90): `rD = (rS1 << shift) ^ rS2`. -/
def execXorReg (rD rS1 rS2 : Reg) (sh : Shift) (sf : SF) (s : State) : Result :=
  aluReg aluXor (some rD) rS1 rS2 sh sf s

end Sys2Proof.Machine
end

