-- ==== Sys2Proof/Machine/TestCompare.lean ====
section
/-! DEFINITION. The test and compare instructions CMP, TSA, TSX (`44_test_compare.md` R94 to R102): they have no
destination. -/

namespace Sys2Proof.Machine

/-- CMPI, Immediate format (R94): flags of `rS - imm16`; the result is discarded. -/
def execCmpImm (rS : Reg) (imm16 : Word) (sf : SF) (s : State) : Result :=
  aluImm aluSub none rS imm16 sf s

/-- CMPI, Short Immediate format (R95): flags of `(rS << shift) - imm8`; the result is discarded. -/
def execCmpShort (rS : Reg) (imm8 : Byte) (sh : Shift) (sf : SF) (s : State) : Result :=
  aluShort aluSub none rS imm8 sh sf s

/-- CMPR, Register format (R96): flags of `(rS1 << shift) - rS2`; the result is discarded. -/
def execCmpReg (rS1 rS2 : Reg) (sh : Shift) (sf : SF) (s : State) : Result :=
  aluReg aluSub none rS1 rS2 sh sf s

/-- TSAI, Immediate format (R97): flags of `rS & imm16`; the result is discarded. -/
def execTsaImm (rS : Reg) (imm16 : Word) (sf : SF) (s : State) : Result :=
  aluImm aluAnd none rS imm16 sf s

/-- TSAI, Short Immediate format (R98): flags of `(rS << shift) & imm8`; the result is discarded. -/
def execTsaShort (rS : Reg) (imm8 : Byte) (sh : Shift) (sf : SF) (s : State) : Result :=
  aluShort aluAnd none rS imm8 sh sf s

/-- TSAR, Register format (R99): flags of `(rS1 << shift) & rS2`; the result is discarded. -/
def execTsaReg (rS1 rS2 : Reg) (sh : Shift) (sf : SF) (s : State) : Result :=
  aluReg aluAnd none rS1 rS2 sh sf s

/-- TSXI, Immediate format (R100): flags of `rS ^ imm16`; the result is discarded. -/
def execTsxImm (rS : Reg) (imm16 : Word) (sf : SF) (s : State) : Result :=
  aluImm aluXor none rS imm16 sf s

/-- TSXI, Short Immediate format (R101): flags of `(rS << shift) ^ imm8`; the result is discarded. -/
def execTsxShort (rS : Reg) (imm8 : Byte) (sh : Shift) (sf : SF) (s : State) : Result :=
  aluShort aluXor none rS imm8 sh sf s

/-- TSXR, Register format (R102): flags of `(rS1 << shift) ^ rS2`; the result is discarded. -/
def execTsxReg (rS1 rS2 : Reg) (sh : Shift) (sf : SF) (s : State) : Result :=
  aluReg aluXor none rS1 rS2 sh sf s

end Sys2Proof.Machine
end

