-- ==== Sys2Proof/Machine/Dispatch.lean ====
section
/-! DEFINITION. The dispatch of an instruction to its meaning, one arm per row of `spec/opcode_table.json`. -/

namespace Sys2Proof.Machine

def exec (i : Instr) (s : State) : Host.Outcome State Fault Refusal :=
  match i with
  | .addImm rD imm16 sf => Sys2Proof.Machine.execAddImm rD imm16 sf s
  | .addShort rD imm8 sh sf => Sys2Proof.Machine.execAddShort rD imm8 sh sf s
  | .addReg rD rS1 rS2 sh sf => Sys2Proof.Machine.execAddReg rD rS1 rS2 sh sf s
  | .adcImm rD imm16 sf => Sys2Proof.Machine.execAdcImm rD imm16 sf s
  | .adcShort rD imm8 sh sf => Sys2Proof.Machine.execAdcShort rD imm8 sh sf s
  | .adcReg rD rS1 rS2 sh sf => Sys2Proof.Machine.execAdcReg rD rS1 rS2 sh sf s
  | .subImm rD imm16 sf => Sys2Proof.Machine.execSubImm rD imm16 sf s
  | .subShort rD imm8 sh sf => Sys2Proof.Machine.execSubShort rD imm8 sh sf s
  | .subReg rD rS1 rS2 sh sf => Sys2Proof.Machine.execSubReg rD rS1 rS2 sh sf s
  | .sbcImm rD imm16 sf => Sys2Proof.Machine.execSbcImm rD imm16 sf s
  | .sbcShort rD imm8 sh sf => Sys2Proof.Machine.execSbcShort rD imm8 sh sf s
  | .sbcReg rD rS1 rS2 sh sf => Sys2Proof.Machine.execSbcReg rD rS1 rS2 sh sf s
  | .andImm rD imm16 sf => Sys2Proof.Machine.execAndImm rD imm16 sf s
  | .andShort rD imm8 sh sf => Sys2Proof.Machine.execAndShort rD imm8 sh sf s
  | .andReg rD rS1 rS2 sh sf => Sys2Proof.Machine.execAndReg rD rS1 rS2 sh sf s
  | .orrImm rD imm16 sf => Sys2Proof.Machine.execOrrImm rD imm16 sf s
  | .orrShort rD imm8 sh sf => Sys2Proof.Machine.execOrrShort rD imm8 sh sf s
  | .orrReg rD rS1 rS2 sh sf => Sys2Proof.Machine.execOrrReg rD rS1 rS2 sh sf s
  | .xorImm rD imm16 sf => Sys2Proof.Machine.execXorImm rD imm16 sf s
  | .xorShort rD imm8 sh sf => Sys2Proof.Machine.execXorShort rD imm8 sh sf s
  | .xorReg rD rS1 rS2 sh sf => Sys2Proof.Machine.execXorReg rD rS1 rS2 sh sf s
  | .loadImm rD imm16 sf => Sys2Proof.Machine.execLoadImm rD imm16 sf s
  | .loadShort rD imm8 sh sf => Sys2Proof.Machine.execLoadShort rD imm8 sh sf s
  | .loadReg rD rS sh sf => Sys2Proof.Machine.execLoadReg rD rS sh sf s
  | .cmpImm rS imm16 sf => Sys2Proof.Machine.execCmpImm rS imm16 sf s
  | .cmpShort rS imm8 sh sf => Sys2Proof.Machine.execCmpShort rS imm8 sh sf s
  | .cmpReg rS1 rS2 sh sf => Sys2Proof.Machine.execCmpReg rS1 rS2 sh sf s
  | .tsaImm rS imm16 sf => Sys2Proof.Machine.execTsaImm rS imm16 sf s
  | .tsaShort rS imm8 sh sf => Sys2Proof.Machine.execTsaShort rS imm8 sh sf s
  | .tsaReg rS1 rS2 sh sf => Sys2Proof.Machine.execTsaReg rS1 rS2 sh sf s
  | .tsxImm rS imm16 sf => Sys2Proof.Machine.execTsxImm rS imm16 sf s
  | .tsxShort rS imm8 sh sf => Sys2Proof.Machine.execTsxShort rS imm8 sh sf s
  | .tsxReg rS1 rS2 sh sf => Sys2Proof.Machine.execTsxReg rS1 rS2 sh sf s

end Sys2Proof.Machine
end

