-- ==== Sys2Proof/Machine/Step.lean ====
section
/-! DEFINITION. One step of the machine (`40_common_alu.md` R61): fetch the entry at `pc` and run it. -/

namespace Sys2Proof.Machine

/-- One step: the instruction at `PROGRAM[pc]` runs (`60_exceptions.md` R110); a refused word has no successor state;
with nothing to fetch the run has ended (`70_reset_and_hazards.md` R123). Nothing else acts between two steps, and no
cycle is counted: UNVERIFIED, unsafe, log entries 13 and 19. -/
def step (s : State) : Host.Outcome State Fault Refusal :=
  match s.fetch with
  | .instr i => exec i s
  | .refused r => refuse r
  | .stop f => .fault f

/-- `s` with the instruction whose bits are `w` (numbered as `spec/opcode_table.json` numbers them, every bit above
`nbits` being 0) as the program's entry at `pc`, where `step` fetches. It stands for the outside world's supplying
`PROGRAM` before the run (R127, log entry 5). -/
def State.withFetchWord (s : State) (nbits w : Nat) : State :=
  { s with program := placeEntry s.program s.pc (.word (tableWord nbits w)) }

end Sys2Proof.Machine
end

