-- ==== Sys2Proof/Machine/Assembler.lean ====
section
/-! DEFINITION. The assembler spelling of the instructions (`30_encoding.md` R44 to R48): statements and their
operands, the choice of format, and the reading of one line of text. No step of the machine uses this file. -/

namespace Sys2Proof.Machine

/-- A mnemonic (R44): the operation with `I` for both immediate formats or `R` for the register format; LOAD is
spelled the same in all three. -/
inductive Mnemonic
  | immForms (op : Op)
  | regForm (op : Op)
  | load
deriving DecidableEq, Repr

/-- An operand of a statement (R44, R46): a register, `#c`, or the shift operand `LSL #n`. -/
inductive Operand
  | reg (r : Reg)
  | imm (c : Int)
  | lsl (n : Nat)
deriving DecidableEq, Repr

/-- A statement `MNEMONIC[override] operand, operand, ...` (R44, R45). -/
structure Statement where
  mnemonic : Mnemonic
  override : SF
  operands : List Operand
deriving DecidableEq, Repr

/-- Why a line is no statement of the assembler. -/
inductive AsmError
  /-- The mnemonic is none of R44's 21; `BRAN` is one such (`60_exceptions.md` R118). -/
  | unknownMnemonic
  /-- The brackets hold none of `A`, `S`, `N` (R45). -/
  | unknownOverride
  /-- The text of an operand is none of R44's and R46's; a bare `LSL` is one such (R46, `90_conflicts.md` C2). -/
  | badOperand
  /-- The operands match no form of R48; `ORRR r1, r4` is one such (`90_conflicts.md` C3). -/
  | noSuchForm
  /-- A constant or shift amount outside R47's range. -/
  | constantOutOfRange
deriving DecidableEq, Repr

/-- The Register-format instruction of an operation with a destination and two sources; none for the others. -/
def Instr.ofReg3 (op : Op) (rD rS1 rS2 : Reg) (sh : Shift) (sf : SF) : Option Instr :=
  match op with
  | .add => some (.addReg rD rS1 rS2 sh sf)
  | .adc => some (.adcReg rD rS1 rS2 sh sf)
  | .sub => some (.subReg rD rS1 rS2 sh sf)
  | .sbc => some (.sbcReg rD rS1 rS2 sh sf)
  | .and => some (.andReg rD rS1 rS2 sh sf)
  | .orr => some (.orrReg rD rS1 rS2 sh sf)
  | .xor => some (.xorReg rD rS1 rS2 sh sf)
  | .load | .cmp | .tsa | .tsx => none

/-- The Register-format instruction of CMP, TSA or TSX; none for the others. -/
def Instr.ofReg2 (op : Op) (rS1 rS2 : Reg) (sh : Shift) (sf : SF) : Option Instr :=
  match op with
  | .cmp => some (.cmpReg rS1 rS2 sh sf)
  | .tsa => some (.tsaReg rS1 rS2 sh sf)
  | .tsx => some (.tsxReg rS1 rS2 sh sf)
  | .add | .adc | .sub | .sbc | .and | .orr | .xor | .load => none

/-- `OPI reg, #c` (R47): the Immediate format, `c` in -32768..65535 encoded as `trunc_16(c)`. The choice of format is the
spec's decision D8: UNVERIFIED, unsafe for the toolchain only, log entry 20. -/
def assembleImm (op : Op) (r : Reg) (c : Int) (sf : SF) : Except AsmError Instr :=
  if -32768 ≤ c ∧ c ≤ 65535 then .ok (.ofImm op r (trunc16 c) sf) else .error .constantOutOfRange

/-- `OPI reg, #c, LSL #n` (R47): the Short Immediate format, `c` in 0..255 and `n` in 0..15. -/
def assembleShort (op : Op) (r : Reg) (c : Int) (n : Nat) (sf : SF) : Except AsmError Instr :=
  if 0 ≤ c ∧ c ≤ 255 ∧ n ≤ 15 then .ok (.ofShort op r (BitVec.ofInt 8 c) (.lsl (BitVec.ofNat 4 n)) sf)
  else .error .constantOutOfRange

/-- The optional shift operand of the register forms (R46): an omitted one is `NoShift`. -/
def shiftOperand (operands : List Operand) : Except AsmError Shift :=
  match operands with
  | [] => .ok .noShift
  | [.lsl n] => if n ≤ 15 then .ok (.lsl (BitVec.ofNat 4 n)) else .error .constantOutOfRange
  | _ => .error .noSuchForm

/-- The register forms (R48): `OP rD, rS1, rS2[, shift]`, and `OP rS1, rS2[, shift]` for CMP, TSA, TSX. -/
def assembleReg (op : Op) (operands : List Operand) (sf : SF) : Except AsmError Instr :=
  match operands with
  | .reg a :: .reg b :: .reg c :: rest => do
    let sh ← shiftOperand rest
    match Instr.ofReg3 op a b c sh sf with
    | some i => .ok i
    | none => .error .noSuchForm
  | .reg a :: .reg b :: rest => do
    let sh ← shiftOperand rest
    match Instr.ofReg2 op a b sh sf with
    | some i => .ok i
    | none => .error .noSuchForm
  | _ => .error .noSuchForm

/-- The instruction a statement assembles to (R47, R48). Whether the spec admits it is R30's check, not this one. -/
def assemble (st : Statement) : Except AsmError Instr :=
  match st.mnemonic, st.operands with
  | .immForms op, [.reg r, .imm c] => assembleImm op r c st.override
  | .immForms op, [.reg r, .imm c, .lsl n] => assembleShort op r c n st.override
  | .immForms _, _ => .error .noSuchForm
  | .load, [.reg r, .imm c] => assembleImm .load r c st.override
  | .load, [.reg r, .imm c, .lsl n] => assembleShort .load r c n st.override
  | .load, [.reg rD, .reg rS] => .ok (.loadReg rD rS .noShift st.override)
  | .load, _ => .error .noSuchForm
  | .regForm op, operands => assembleReg op operands st.override

/-- The shift operand as it is written; nothing for `NoShift`. -/
def Shift.operands (sh : Shift) : List Operand :=
  match sh with
  | .noShift => []
  | .lsl n => [.lsl n.toNat]

/-- The mnemonic of the immediate formats of an operation (R44). -/
def immMnemonic (op : Op) : Mnemonic := if op = .load then .load else .immForms op

/-- The mnemonic of the register format of an operation (R44). -/
def regMnemonic (op : Op) : Mnemonic := if op = .load then .load else .regForm op

/-- The statement that assembles to an instruction. None for a Short Immediate instruction with `NoShift`, which the
assembler never emits (R47), and for a LOAD register term with a shift, which has no spelling (R48). -/
def statementOf (i : Instr) : Option Statement :=
  match i.shape with
  | .imm op r k sf => some ⟨immMnemonic op, sf, [.reg r, .imm k.toNat]⟩
  | .short _ _ _ .noShift _ => none
  | .short op r k (.lsl n) sf => some ⟨immMnemonic op, sf, [.reg r, .imm k.toNat, .lsl n.toNat]⟩
  | .reg op rD rS1 rS2 sh sf =>
    if op = .load ∧ sh ≠ .noShift then none
    else some ⟨regMnemonic op, sf, (rD.toList ++ rS1.toList ++ [rS2]).map .reg ++ Shift.operands sh⟩

/-- The 21 mnemonics of R44. -/
def mnemonicTable : List (List Char × Mnemonic) :=
  [ ("ADDI".toList, .immForms .add), ("ADDR".toList, .regForm .add),
    ("ADCI".toList, .immForms .adc), ("ADCR".toList, .regForm .adc),
    ("SUBI".toList, .immForms .sub), ("SUBR".toList, .regForm .sub),
    ("SBCI".toList, .immForms .sbc), ("SBCR".toList, .regForm .sbc),
    ("ANDI".toList, .immForms .and), ("ANDR".toList, .regForm .and),
    ("ORRI".toList, .immForms .orr), ("ORRR".toList, .regForm .orr),
    ("XORI".toList, .immForms .xor), ("XORR".toList, .regForm .xor),
    ("CMPI".toList, .immForms .cmp), ("CMPR".toList, .regForm .cmp),
    ("TSAI".toList, .immForms .tsa), ("TSAR".toList, .regForm .tsa),
    ("TSXI".toList, .immForms .tsx), ("TSXR".toList, .regForm .tsx),
    ("LOAD".toList, .load) ]

/-- A lexical unit of the operands: a run of letters and digits, or one other character. -/
inductive Token
  | word (cs : List Char)
  | sym (c : Char)
deriving DecidableEq, Repr

/-- The run of letters and digits collected so far, put before the rest. -/
def Token.flush (acc : List Char) (rest : List Token) : List Token :=
  match acc with
  | [] => rest
  | _ => .word acc.reverse :: rest

/-- The tokens of a text; blanks only separate (DESIGN CHOICE, unsafe for the toolchain only, log entry 21). -/
def lexTokens (cs : List Char) (acc : List Char) : List Token :=
  match cs with
  | [] => Token.flush acc []
  | c :: rest =>
    if c.isAlphanum then lexTokens rest (c :: acc)
    else if c = ' ' ∨ c = '\t' then Token.flush acc (lexTokens rest [])
    else Token.flush acc (.sym c :: lexTokens rest [])

/-- The digits in the order of their values. -/
def digitChars : List Char := "0123456789ABCDEF".toList

/-- The value of a digit in a base of at most 16: its place among the base's digits. A hexadecimal digit may be written
in either case, of which R44 shows upper case only: DESIGN CHOICE, unsafe for the toolchain only, log entry 21. -/
def digitValue (base : Nat) (c : Char) : Option Nat := (digitChars.take base).idxOf? c.toUpper

/-- The value of a run of digits. -/
def digitsValue (base : Nat) (cs : List Char) (acc : Nat) : Option Nat :=
  match cs with
  | [] => some acc
  | c :: rest => (digitValue base c).bind fun d => digitsValue base rest (acc * base + d)

/-- A constant (R44): decimal, or hexadecimal with `0x`. -/
def numberValue (cs : List Char) : Option Nat :=
  match cs with
  | [] => none
  | '0' :: 'x' :: c :: rest => digitsValue 16 (c :: rest) 0
  | cs => digitsValue 10 cs 0

/-- Where the reading of a constant expression stands. -/
inductive ExprMode
  | unary
  | shiftChain
  | afterOperand (v : Int)

/-- A constant expression of R44 with `~`, `<<` and parentheses, and the tokens after it; `~` binds tighter than
`<<`, which groups from the left (DEDUCED, unsafe for the toolchain only, log entry 8). The first argument bounds the depth of the reading. -/
def exprValue (fuel : Nat) (mode : ExprMode) (ts : List Token) : Option (Int × List Token) :=
  match fuel, mode, ts with
  | 0, _, _ => none
  | fuel + 1, .unary, .sym '~' :: ts =>
    match exprValue fuel .unary ts with
    | some (v, rest) => some (-v - 1, rest)
    | none => none
  | fuel + 1, .unary, .sym '(' :: ts =>
    match exprValue fuel .shiftChain ts with
    | some (v, .sym ')' :: rest) => some (v, rest)
    | _ => none
  | _ + 1, .unary, .word cs :: ts => (numberValue cs).map fun n => ((n : Int), ts)
  | _ + 1, .unary, _ => none
  | fuel + 1, .shiftChain, ts =>
    match exprValue fuel .unary ts with
    | some (v, rest) => exprValue fuel (.afterOperand v) rest
    | none => none
  | fuel + 1, .afterOperand v, .sym '<' :: .sym '<' :: ts =>
    match exprValue fuel .unary ts with
    | some (n, rest) => if n < 0 then none else exprValue fuel (.afterOperand (v * 2 ^ n.toNat)) rest
    | none => none
  | _ + 1, .afterOperand v, ts => some (v, ts)

/-- The constant after `#` (R44, R47): a number, a negative number, or a constant expression, which is "evaluated and
truncated to 16 bits". -/
def constantValue (ts : List Token) : Option Int :=
  match ts with
  | [.word cs] => (numberValue cs).map fun n => (n : Int)
  | [.sym '-', .word cs] => (numberValue cs).map fun n => -(n : Int)
  | ts =>
    match exprValue (2 * ts.length + 2) .shiftChain ts with
    | some (v, []) => some (trunc16 v).toNat
    | _ => none

/-- A register operand is `r1` .. `r7` (R44). -/
def regOperand (cs : List Char) : Option Reg :=
  match cs with
  | ['r', '1'] => some .r1
  | ['r', '2'] => some .r2
  | ['r', '3'] => some .r3
  | ['r', '4'] => some .r4
  | ['r', '5'] => some .r5
  | ['r', '6'] => some .r6
  | ['r', '7'] => some .r7
  | _ => none

/-- One operand (R44, R46): a register, `#` and a constant, or `LSL #n` with a decimal `n`. -/
def operandOf (ts : List Token) : Option Operand :=
  match ts with
  | [.word cs] => (regOperand cs).map .reg
  | .sym '#' :: rest => (constantValue rest).map .imm
  | [.word ['L', 'S', 'L'], .sym '#', .word n] => (digitsValue 10 n 0).map .lsl
  | _ => none

/-- The tokens between commas. -/
def splitOperands (ts : List Token) : List (List Token) :=
  match ts with
  | [] => [[]]
  | .sym ',' :: rest => [] :: splitOperands rest
  | t :: rest =>
    match splitOperands rest with
    | [] => [[t]]
    | first :: others => (t :: first) :: others

/-- The override in square brackets directly after the mnemonic, and the text after it; none written means `[A]`
(R45). -/
def overrideOf (cs : List Char) : Except AsmError (SF × List Char) :=
  match cs with
  | '[' :: 'A' :: ']' :: rest => .ok (.a, rest)
  | '[' :: 'S' :: ']' :: rest => .ok (.s, rest)
  | '[' :: 'N' :: ']' :: rest => .ok (.n, rest)
  | '[' :: _ => .error .unknownOverride
  | rest => .ok (.a, rest)

/-- The statement a line holds (R44): a semicolon starts a comment, and a line with nothing before it holds none
(log entry 21). -/
def statementOfLine (line : List Char) : Except AsmError (Option Statement) :=
  let text := (line.takeWhile (· ≠ ';')).dropWhile fun c => c = ' ' ∨ c = '\t'
  if text = [] then .ok none
  else
    match mnemonicTable.lookup (text.takeWhile Char.isAlphanum) with
    | none => .error .unknownMnemonic
    | some m => do
      let (sf, rest) ← overrideOf (text.dropWhile Char.isAlphanum)
      match (splitOperands (lexTokens rest [])).mapM operandOf with
      | some operands => .ok (some ⟨m, sf, operands⟩)
      | none => .error .badOperand

/-- The instruction a line of text assembles to (R44 to R48). -/
def assembleLine (line : List Char) : Except AsmError (Option Instr) := do
  match ← statementOfLine line with
  | none => .ok none
  | some st => (assemble st).map some

end Sys2Proof.Machine
end

