-- ==== Sys2Proof/Safety.lean ====
section
/-! DEFINITION. The terms in which claims about the machine are made: runs and their end, what a safe run is, and
what an instruction leaves behind, written with Lean's own arithmetic and not with the machine's operations. -/

namespace Sys2Proof.Machine

/-- The program position stands inside the program or just past it (`10_state.md` R12). -/
abbrev State.Inv (s : State) : Prop := s.pc ≤ s.program.length

/-- The run has ended: `pc = len(PROGRAM)` (`70_reset_and_hazards.md` R123). -/
abbrev State.Final (s : State) : Prop := s.pc = s.program.length

/-- `k` steps, stopping at the first fault or refusal. -/
def runSteps (k : Nat) (s : State) : Result :=
  match k with
  | 0 => .next s
  | k + 1 =>
    match step s with
    | .next t => runSteps k t
    | .fault f => .fault f
    | .refused r => .refused r

/-- A safe run: it reaches its end without a refusal (R123). -/
def State.Completes (s : State) : Prop :=
  ∃ t, runSteps (s.program.length - s.pc) s = .next t ∧ t.Final ∧ t.program = s.program

/-- The spec gives the entry a meaning: it decodes, and R30 does not refuse it. -/
def ProgramEntry.Admitted (e : ProgramEntry) : Prop := ∃ i, decodeEntry e = .ok i ∧ i.WellFormed

/-- A word with a listed opcode whose `cond`, `sf` and, outside the Immediate format, shift fields pass R36 to R38 of
`30_encoding.md`. -/
abbrev FieldsBeforeRegistersPass (w : InstrWord) : Prop :=
  decode w ≠ .error .opcodeNotInSource ∧ fieldCond w = 0 ∧ fieldSf w ≠ 3 ∧
    (w.getLsbD 31 = true → fieldShsel w = 0 ∧ (fieldShtype w = 0 ∧ fieldShcnt w = 0 ∨ fieldShtype w = 1))

/-- R35: field values 0 and 8 to 15 name no register. -/
abbrev NamesNoRegister (b : BitVec 4) : Prop := b = 0 ∨ 8 ≤ b.toNat

/-- What an instruction leaves unchanged: every register but its destination, and `PROGRAM`; `pc` moves on by one
(`10_state.md` R12, R53; `20_memory.md` R28). The flags are said beside it. -/
structure Frame (s t : State) (dest : Option Reg) : Prop where
  regs : ∀ r, dest ≠ some r → t.getReg r = s.getReg r
  pc : t.pc = s.pc + 1
  program : t.program = s.program

/-- The four flags of a result (`10_state.md` R14): N is its bit 15, Z says it is zero, C and V as given. -/
structure FlagsReport (t : State) (result : Word) (carry overflow : Prop) : Prop where
  n : t.sr.n = result.getLsbD 15
  z : t.sr.z = true ↔ result = 0#16
  c : t.sr.c = true ↔ carry
  v : t.sr.v = true ↔ overflow

/-- What an operation computes from operand1, operand2 and the old `SR.C`. -/
structure AluClaim where
  result : Word → Word → Bool → Word
  carry : Word → Word → Bool → Prop
  overflow : Word → Word → Bool → Prop

/-- An exact signed value that a 16-bit register cannot hold. -/
def OutsideSigned (n : Int) : Prop := n < -32768 ∨ 32767 < n

/-- ADD (`40_common_alu.md` R54, `cin = 0`). -/
def AluClaim.add : AluClaim where
  result a b _ := a + b
  carry a b _ := 65536 ≤ a.toNat + b.toNat
  overflow a b _ := OutsideSigned (a.toInt + b.toInt)

/-- ADC (R54, `cin = SR.C`). -/
def AluClaim.adc : AluClaim where
  result a b c := a + b + BitVec.ofNat 16 c.toNat
  carry a b c := 65536 ≤ a.toNat + b.toNat + c.toNat
  overflow a b c := OutsideSigned (a.toInt + b.toInt + c.toNat)

/-- SUB and CMP (R55, `bin = 0`): C is NOT(borrow). -/
def AluClaim.sub : AluClaim where
  result a b _ := a - b
  carry a b _ := b.toNat ≤ a.toNat
  overflow a b _ := OutsideSigned (a.toInt - b.toInt)

/-- SBC (R55, `bin = 1 - SR.C`). -/
def AluClaim.sbc : AluClaim where
  result a b c := a - b - BitVec.ofNat 16 (!c).toNat
  carry a b c := b.toNat + (!c).toNat ≤ a.toNat
  overflow a b c := OutsideSigned (a.toInt - b.toInt - (!c).toNat)

/-- A logical operation: C and V are cleared (R57). -/
def AluClaim.logical (f : Word → Word → Word) : AluClaim where
  result a b _ := f a b
  carry _ _ _ := False
  overflow _ _ _ := False

/-- AND and TSA (R56). -/
def AluClaim.and : AluClaim := .logical fun a b => a &&& b

/-- ORR (R56). -/
def AluClaim.orr : AluClaim := .logical fun a b => a ||| b

/-- XOR and TSX (R56). -/
def AluClaim.xor : AluClaim := .logical fun a b => a ^^^ b

/-- The shift result (R51, R52). -/
def shiftResult (v : Word) (sh : Shift) : Word :=
  match sh with
  | .noShift => v
  | .lsl n => v <<< n.toNat

/-- `t` is what an operation other than LOAD leaves of `s` (R57 to R61): the frame, the destination, and the flags
under each override. -/
structure AluNext (op : AluClaim) (dest : Option Reg) (op1raw : Word) (sh : Shift) (operand2 : Word) (sf : SF)
    (s t : State) : Prop where
  frame : Frame s t dest
  result : ∀ r, dest = some r → t.getReg r = op.result (shiftResult op1raw sh) operand2 s.sr.c
  flagsA : sf = .a → FlagsReport t (op.result (shiftResult op1raw sh) operand2 s.sr.c)
    (op.carry (shiftResult op1raw sh) operand2 s.sr.c) (op.overflow (shiftResult op1raw sh) operand2 s.sr.c)
  flagsS : sf = .s → FlagsReport t (shiftResult op1raw sh) ((Config.shiftCV sh op1raw s.sr.c s.sr.v).1 = true)
    ((Config.shiftCV sh op1raw s.sr.c s.sr.v).2 = true)
  flagsN : sf = .n → t.sr = s.sr

/-- What a rule of the Immediate format says (R50, first row; R30; R31; R44): its spelling, its encoding, its effect
under `[A]` and `[N]`, and the refusal of `[S]`. -/
def ImmRule (name : Op) (op : AluClaim) (opcode : BitVec 6) (mk : Reg → Word → SF → Instr) : Prop :=
  ∀ (r : Reg) (k : Word) (s : State),
    (∀ sf, assemble ⟨.immForms name, sf, [.reg r, .imm k.toNat]⟩ = .ok (mk r k sf) ∧
      encode (mk r k sf) = opcode ++ r.code ++ k ++ sf.code ++ 0#4) ∧
    (∀ sf, sf ≠ .s → ∃ t, exec (mk r k sf) s = .next t ∧
      AluNext op (if name.isTest then none else some r) (s.getReg r) .noShift k sf s t) ∧
    exec (mk r k .s) s = .refused (.refuse .immFormatHasNoShifter)

/-- What a rule of the Short Immediate format says (R50, second row; R31; R44): its spelling with `LSL #n`, its encoding
with every shift operand, and its effect: the register is shifted, the constant zero-extended. -/
def ShortRule (name : Op) (op : AluClaim) (opcode : BitVec 6) (mk : Reg → Byte → Shift → SF → Instr) : Prop :=
  ∀ (r : Reg) (k : Byte) (sh : Shift) (sf : SF) (s : State),
    (∀ n, sh = .lsl n →
      assemble ⟨.immForms name, sf, [.reg r, .imm k.toNat, .lsl n.toNat]⟩ = .ok (mk r k sh sf)) ∧
    encode (mk r k sh sf) = opcode ++ r.code ++ k ++ 0#1 ++ sh.typeCode ++ sh.count ++ sf.code ++ 0#4 ∧
    ∃ t, exec (mk r k sh sf) s = .next t ∧
      AluNext op (if name.isTest then none else some r) (s.getReg r) sh (k.setWidth 16) sf s t

/-- What a rule of the Register format with a destination says (R50, third row; R31; R44; R48): its spelling with and
without a shift operand, its encoding and its effect. -/
def RegRule (name : Op) (op : AluClaim) (opcode : BitVec 6) (mk : Reg → Reg → Reg → Shift → SF → Instr) : Prop :=
  ∀ (rD rS1 rS2 : Reg) (sh : Shift) (sf : SF) (s : State),
    assemble ⟨.regForm name, sf, [.reg rD, .reg rS1, .reg rS2] ++ Shift.operands sh⟩ = .ok (mk rD rS1 rS2 sh sf) ∧
    encode (mk rD rS1 rS2 sh sf) =
      opcode ++ rD.code ++ rS1.code ++ rS2.code ++ 0#1 ++ sh.typeCode ++ sh.count ++ sf.code ++ 0#4 ∧
    ∃ t, exec (mk rD rS1 rS2 sh sf) s = .next t ∧
      AluNext op (some rD) (s.getReg rS1) sh (s.getReg rS2) sf s t

/-- What a Register-format rule of a test operation says (R40, R48, R50): no destination is spelled, the `rD` field is 0
and nothing is written. -/
def RegTestRule (name : Op) (op : AluClaim) (opcode : BitVec 6) (mk : Reg → Reg → Shift → SF → Instr) : Prop :=
  ∀ (rS1 rS2 : Reg) (sh : Shift) (sf : SF) (s : State),
    assemble ⟨.regForm name, sf, [.reg rS1, .reg rS2] ++ Shift.operands sh⟩ = .ok (mk rS1 rS2 sh sf) ∧
    encode (mk rS1 rS2 sh sf) =
      opcode ++ 0#4 ++ rS1.code ++ rS2.code ++ 0#1 ++ sh.typeCode ++ sh.count ++ sf.code ++ 0#4 ∧
    ∃ t, exec (mk rS1 rS2 sh sf) s = .next t ∧
      AluNext op none (s.getReg rS1) sh (s.getReg rS2) sf s t

/-- `t` is what LOAD of `v` into `rD` leaves of `s` (R60, `43_load.md`): no flag is written. -/
structure LoadNext (rD : Reg) (v : Word) (s t : State) : Prop where
  frame : Frame s t (some rD)
  result : t.getReg rD = v
  flags : t.sr = s.sr

end Sys2Proof.Machine
end

