-- ==== Sys2Proof/Certificates/Slice0/Obligations.lean ====
section
/-! DEFINITION. The statements for the provers, in the order of the spec's files: encoding, ALU operations, flags and
overrides, the 33 instructions, frames and refusals, the run. -/

open Sys2Proof Sys2Proof.Machine

/-! ### The binary layout (`30_encoding.md`) -/

/-- `30_encoding.md` R39 ("Encode is the inverse on the admitted set"): every admitted instruction is read back from
its word. -/
def Obligations.DecodeOfEncode : Prop :=
  ∀ i : Instr, i.WellFormed → decode (encode i) = .ok i

/-- R39, the other direction: a word that decodes is the word of the instruction read from it, which is admitted. -/
def Obligations.EncodeOfDecode : Prop :=
  ∀ (w : InstrWord) (i : Instr), decode w = .ok i → i.WellFormed ∧ encode i = w

/-- Words written out in `95_test_vectors.md` section 6.1 decode to the instructions it names. -/
def Obligations.DecodeSampleWords : Prop :=
  decode 0x00401900#32 = .ok (.addImm .r1 0x0064#16 .a) ∧
  decode 0x807FC7C0#32 = .ok (.addShort .r1 0xFF#8 (.lsl 15#4) .a) ∧
  decode 0x80404000#32 = .ok (.addShort .r1 0x01#8 .noShift .a) ∧
  decode 0xC1154440#32 = .ok (.addReg .r4 .r5 .r5 (.lsl 1#4) .a) ∧
  decode 0xE808C000#32 = .ok (.cmpReg .r2 .r3 .noShift .a) ∧
  decode 0x804004D0#32 = .ok (.addShort .r1 0x00#8 (.lsl 3#4) .s) ∧
  decode 0x9C448600#32 = .ok (.loadShort .r1 0x12#8 (.lsl 8#4) .a) ∧
  decode 0xDDC1C000#32 = .ok (.loadReg .r7 .r7 .noShift .a) ∧
  decode 0xF8048600#32 = .ok (.tsxReg .r1 .r2 (.lsl 8#4) .a) ∧
  decode 0x1DFFFFE0#32 = .ok (.loadImm .r7 0xFFFF#16 .n)

/-- R42 and R39 step 1: a word is refused as `OpcodeNotInSource` exactly if its opcode is not one of R41's 33,
whatever its other bits are. -/
def Obligations.OpcodeNotInSourceExactly : Prop :=
  ∀ w : InstrWord, decode w = .error .opcodeNotInSource ↔
    (w.toNat / 2 ^ 26) ∉
      [0x00, 0x01, 0x02, 0x03, 0x04, 0x05, 0x06, 0x07, 0x0A, 0x0C, 0x0E,
       0x20, 0x21, 0x22, 0x23, 0x24, 0x25, 0x26, 0x27, 0x2A, 0x2C, 0x2E,
       0x30, 0x31, 0x32, 0x33, 0x34, 0x35, 0x36, 0x37, 0x3A, 0x3C, 0x3E]

/-- R39 steps 2, 3 and 5 with R36, R37 and R38: on a word with a listed opcode the `cond` check comes first, then
`sf`, then (outside the Immediate format) `shsel`, `shtype` and `shcnt`. -/
def Obligations.DecodeChecksInOrder : Prop :=
  ∀ w : InstrWord, decode w ≠ .error .opcodeNotInSource →
    (fieldCond w ≠ 0 → decode w = .error .conditionNotInSource) ∧
    (fieldCond w = 0 → fieldSf w = 3 → decode w = .error .statusSourceReserved) ∧
    (fieldCond w = 0 → fieldSf w ≠ 3 → w.getLsbD 31 = true →
      (fieldShsel w = 1 → decode w = .error .registerShiftAmountNotInSource) ∧
      (fieldShsel w = 0 → 2 ≤ (fieldShtype w).toNat → decode w = .error .shiftTypeNotInSource) ∧
      (fieldShsel w = 0 → fieldShtype w = 0 → fieldShcnt w ≠ 0 → decode w = .error .shiftCountWithoutShift))

/-- R35 with R39 step 5: a used register field that holds 0 or 8 to 15 refuses the word, in every format. `rD` is
used by all but CMPR, TSAR, TSXR, `rS1` by all register forms but LOAD, `rS2` by all register forms. -/
def Obligations.RegisterFieldsInScope : Prop :=
  ∀ w : InstrWord, FieldsBeforeRegistersPass w →
    (NamesNoRegister (fieldRD w) → fieldOpcode w ∉ [0x3A#6, 0x3C#6, 0x3E#6] →
      decode w = .error .registerNotInScope) ∧
    (NamesNoRegister (fieldRS1 w) → fieldOpcode w ≠ 0x37#6 → (fieldOpcode w).extractLsb' 4 2 = 3#2 →
      decode w = .error .registerNotInScope) ∧
    (NamesNoRegister (fieldRS2 w) → (fieldOpcode w).extractLsb' 4 2 = 3#2 →
      decode w = .error .registerNotInScope)

/-- R40 with R39 step 5 and `90_conflicts.md` C9: a word of CMPR, TSAR, TSXR with a non-zero `rD`, or of the LOAD
register form with a non-zero `rS1` or a shift, whose used fields pass, is refused as `UnusedFieldNonZero`. -/
def Obligations.UnusedFieldsRefused : Prop :=
  ∀ w : InstrWord, FieldsBeforeRegistersPass w → ¬ NamesNoRegister (fieldRS2 w) →
    (fieldOpcode w ∈ [0x3A#6, 0x3C#6, 0x3E#6] → ¬ NamesNoRegister (fieldRS1 w) → fieldRD w ≠ 0 →
      decode w = .error .unusedFieldNonZero) ∧
    (fieldOpcode w = 0x37#6 → ¬ NamesNoRegister (fieldRD w) →
      (fieldRS1 w ≠ 0 ∨ fieldShsel w ≠ 0 ∨ fieldShtype w ≠ 0 ∨ fieldShcnt w ≠ 0) →
      decode w = .error .unusedFieldNonZero)

/-- R39 step 6: a word with `sf = 1` that passes the steps before is refused as `ImmFormatHasNoShifter` in the Immediate
format, LOAD included, and as `LoadShiftFlagsNotInSource` if it is LOAD in one of the other two. -/
def Obligations.ShiftFlagsRefusedOnWords : Prop :=
  ∀ w : InstrWord, FieldsBeforeRegistersPass w → fieldSf w = 1 → ¬ NamesNoRegister (fieldRD w) →
    (w.getLsbD 31 = false → decode w = .error .immFormatHasNoShifter) ∧
    (fieldOpcode w = 0x27#6 → decode w = .error .loadShiftFlagsNotInSource) ∧
    (fieldOpcode w = 0x37#6 → ¬ NamesNoRegister (fieldRS2 w) → fieldRS1 w = 0 → fieldShtype w = 0 →
      decode w = .error .loadShiftFlagsNotInSource)

/-- R39's consequence: no word reports `LoadRegShiftNotInSource`; only a term reaches it. -/
def Obligations.NoWordReportsLoadRegShift : Prop :=
  ∀ w : InstrWord, decode w ≠ .error .loadRegShiftNotInSource

/-- R41: 33 rows; `match` is the opcode at bits 31:26; `mask` selects the opcode, `cond` and the unused fields (R40);
a word that decodes selects the row of the instruction read; no word matches two rows. -/
def Obligations.OpcodeTableSelects : Prop :=
  opcodeTable.length = 33 ∧
  (∀ row ∈ opcodeTable, row.pattern = (opcodeOf row.format row.op).setWidth 32 <<< 26 ∧
    row.mask =
      if row.format = .reg ∧ row.op.isTest then 0xFFC0000F#32
      else if row.format = .reg ∧ row.op = .load then 0xFC3C3FCF#32
      else 0xFC00000F#32) ∧
  (∀ w i, decode w = .ok i →
    ∃ row ∈ opcodeTable, row.format = i.format ∧ row.op = i.op ∧ row.matchesWord w = true) ∧
  opcodeTable.Pairwise fun a b => ∀ w, ¬ (a.matchesWord w = true ∧ b.matchesWord w = true)

/-! ### The assembler (`30_encoding.md` R44 to R48) -/

/-- R47 and R48: every instruction with a spelling is what its statement assembles to, and the only instructions
without one are the Short Immediate ones with `NoShift` and the LOAD register terms with a shift. -/
def Obligations.AssembleOfStatement : Prop :=
  ∀ i : Instr,
    (∀ st, statementOf i = some st → assemble st = .ok i) ∧
    (statementOf i = none ↔
      (∃ op r k sf, i.shape = .short op r k .noShift sf) ∨ (∃ rD rS n sf, i = .loadReg rD rS (.lsl n) sf))

/-- R47: the assembler never emits a Short Immediate instruction with `NoShift`, nor a LOAD register form with a
shift. -/
def Obligations.AssemblerNeverEmits : Prop :=
  ∀ (st : Statement) (i : Instr), assemble st = .ok i →
    (∀ op r k sf, i.shape ≠ .short op r k .noShift sf) ∧ ∀ rD rS n sf, i ≠ .loadReg rD rS (.lsl n) sf

/-! ### The shifter and the ALU (`40_common_alu.md` R51 to R56) -/

/-- R51, R52: the bits of `v` move `n` places toward bit 15, the `n` low bits become 0, the bits moved past bit 15 are
lost; no shift and `LSL #0` leave the value. -/
def Obligations.ShiftedBits : Prop :=
  ∀ (v : Word) (n : BitVec 4),
    (lsl16 v n).toNat = v.toNat * 2 ^ n.toNat % 65536 ∧
    (∀ k, k < 16 → (lsl16 v n).getLsbD k = (decide (n.toNat ≤ k) && v.getLsbD (k - n.toNat))) ∧
    lsl16 v 0#4 = v ∧ shifted v .noShift = v ∧ shifted v (.lsl n) = lsl16 v n

/-- R54: the exact sum, its carry out of bit 15, the signed overflow in both of R54's forms, and which operations use
it. The formulas are the spec's own derivation from "carry out of bit 15" and "the sign of the result is incorrect for
the operation" (log entry 16). -/
def Obligations.AddWithCarry : Prop :=
  ∀ (a b : Word) (cin : Bool),
    let out := addC a b cin
    out.result = a + b + BitVec.ofNat 16 cin.toNat ∧
    (out.carry = true ↔ 65536 ≤ a.toNat + b.toNat + cin.toNat) ∧
    (out.overflow = true ↔ OutsideSigned (a.toInt + b.toInt + cin.toNat)) ∧
    (out.overflow = true ↔ a.getLsbD 15 = b.getLsbD 15 ∧ out.result.getLsbD 15 ≠ a.getLsbD 15) ∧
    aluAdd a b cin = addC a b false ∧ aluAdc a b cin = addC a b cin

/-- R55: the exact difference, C = NOT(borrow), the signed overflow in both of R55's forms, the law
`SubB(a, b, bin) = AddC(a, b ^ 0xFFFF, 1 - bin)`, and which operations use it. The formulas and the law are the spec's
own derivation from "SR.C = NOT(borrow)" (log entry 16). -/
def Obligations.SubtractWithBorrow : Prop :=
  ∀ (a b : Word) (bin : Bool),
    let out := subB a b bin
    out.result = a - b - BitVec.ofNat 16 bin.toNat ∧
    (out.carry = true ↔ ¬ a.toNat < b.toNat + bin.toNat) ∧
    (out.overflow = true ↔ OutsideSigned (a.toInt - b.toInt - bin.toNat)) ∧
    (out.overflow = true ↔ a.getLsbD 15 ≠ b.getLsbD 15 ∧ out.result.getLsbD 15 ≠ a.getLsbD 15) ∧
    out = addC a (b ^^^ 0xFFFF#16) (!bin) ∧
    aluSub a b bin = subB a b false ∧ aluSbc a b bin = subB a b (!bin)

/-- R56: the logical results bit by bit, with C and V cleared (R57). -/
def Obligations.LogicalBits : Prop :=
  ∀ (a b : Word) (c : Bool),
    (∀ k, (aluAnd a b c).result.getLsbD k = (a.getLsbD k && b.getLsbD k)) ∧
    (∀ k, (aluOrr a b c).result.getLsbD k = (a.getLsbD k || b.getLsbD k)) ∧
    (∀ k, (aluXor a b c).result.getLsbD k = (a.getLsbD k ^^ b.getLsbD k)) ∧
    (∀ f ∈ [aluAnd, aluOrr, aluXor], (f a b c).carry = false ∧ (f a b c).overflow = false)

/-- "Used for multi-precision arithmetic": the carry of a low-word addition, taken into the high-word addition, gives
the 32-bit sum and its carry and signed overflow (R54; the source's ADC example). -/
def Obligations.CarryChainAdds32 : Prop :=
  ∀ (ah al bh bl : Word),
    let lo := addC al bl false
    let hi := addC ah bh lo.carry
    let a : BitVec 32 := ah ++ al
    let b : BitVec 32 := bh ++ bl
    hi.result ++ lo.result = a + b ∧
    (hi.carry = true ↔ 2 ^ 32 ≤ a.toNat + b.toNat) ∧
    (hi.overflow = true ↔ a.toInt + b.toInt < -2 ^ 31 ∨ 2 ^ 31 ≤ a.toInt + b.toInt)

/-- The same for subtraction: the low word's C, taken into SBC, propagates the borrow (R55; the source's SBC
example). -/
def Obligations.BorrowChainSubtracts32 : Prop :=
  ∀ (ah al bh bl : Word),
    let lo := subB al bl false
    let hi := subB ah bh (!lo.carry)
    let a : BitVec 32 := ah ++ al
    let b : BitVec 32 := bh ++ bl
    hi.result ++ lo.result = a - b ∧
    (hi.carry = true ↔ b.toNat ≤ a.toNat) ∧
    (hi.overflow = true ↔ a.toInt - b.toInt < -2 ^ 31 ∨ 2 ^ 31 ≤ a.toInt - b.toInt)

/-! ### The 33 instructions (`41_arithmetic.md` to `44_test_compare.md`) -/

/-- R70, R71, R72: ADDI, ADDI, ADDR. -/
def Obligations.AddRules : Prop :=
  ImmRule .add .add 0x00#6 .addImm ∧ ShortRule .add .add 0x20#6 .addShort ∧ RegRule .add .add 0x30#6 .addReg

/-- R73, R74, R75: ADCI, ADCI, ADCR. -/
def Obligations.AdcRules : Prop :=
  ImmRule .adc .adc 0x01#6 .adcImm ∧ ShortRule .adc .adc 0x21#6 .adcShort ∧ RegRule .adc .adc 0x31#6 .adcReg

/-- R76, R77, R78: SUBI, SUBI, SUBR. -/
def Obligations.SubRules : Prop :=
  ImmRule .sub .sub 0x02#6 .subImm ∧ ShortRule .sub .sub 0x22#6 .subShort ∧ RegRule .sub .sub 0x32#6 .subReg

/-- R79, R80, R81: SBCI, SBCI, SBCR. -/
def Obligations.SbcRules : Prop :=
  ImmRule .sbc .sbc 0x03#6 .sbcImm ∧ ShortRule .sbc .sbc 0x23#6 .sbcShort ∧ RegRule .sbc .sbc 0x33#6 .sbcReg

/-- R82, R83, R84: ANDI, ANDI, ANDR. -/
def Obligations.AndRules : Prop :=
  ImmRule .and .and 0x04#6 .andImm ∧ ShortRule .and .and 0x24#6 .andShort ∧ RegRule .and .and 0x34#6 .andReg

/-- R85, R86, R87: ORRI, ORRI, ORRR. -/
def Obligations.OrrRules : Prop :=
  ImmRule .orr .orr 0x05#6 .orrImm ∧ ShortRule .orr .orr 0x25#6 .orrShort ∧ RegRule .orr .orr 0x35#6 .orrReg

/-- R88, R89, R90: XORI, XORI, XORR. -/
def Obligations.XorRules : Prop :=
  ImmRule .xor .xor 0x06#6 .xorImm ∧ ShortRule .xor .xor 0x26#6 .xorShort ∧ RegRule .xor .xor 0x36#6 .xorReg

/-- R91, R92, R93: LOAD in its three formats, with the spelling, the encoding, the effect under `[A]` and `[N]`, the
refusal of `[S]`, and the refusal of a shifted register form (R30). -/
def Obligations.LoadRules : Prop :=
  (∀ (rD : Reg) (k : Word) (s : State),
    (∀ sf, assemble ⟨.load, sf, [.reg rD, .imm k.toNat]⟩ = .ok (.loadImm rD k sf)) ∧
    (∀ sf, encode (.loadImm rD k sf) = 0x07#6 ++ rD.code ++ k ++ sf.code ++ 0#4) ∧
    (∀ sf, sf ≠ .s → ∃ t, exec (.loadImm rD k sf) s = .next t ∧ LoadNext rD k s t) ∧
    exec (.loadImm rD k .s) s = .refused (.refuse .immFormatHasNoShifter)) ∧
  (∀ (rD : Reg) (k : Byte) (sh : Shift) (s : State),
    (∀ sf (n : BitVec 4), assemble ⟨.load, sf, [.reg rD, .imm k.toNat, .lsl n.toNat]⟩ = .ok (.loadShort rD k (.lsl n) sf)) ∧
    (∀ sf, encode (.loadShort rD k sh sf) =
      0x27#6 ++ rD.code ++ k ++ 0#1 ++ sh.typeCode ++ sh.count ++ sf.code ++ 0#4) ∧
    (∀ sf, sf ≠ .s → ∃ t, exec (.loadShort rD k sh sf) s = .next t ∧
      LoadNext rD (shiftResult (k.setWidth 16) sh) s t) ∧
    exec (.loadShort rD k sh .s) s = .refused (.refuse .loadShiftFlagsNotInSource)) ∧
  (∀ (rD rS : Reg) (s : State),
    (∀ sf, assemble ⟨.load, sf, [.reg rD, .reg rS]⟩ = .ok (.loadReg rD rS .noShift sf)) ∧
    (∀ sf, encode (.loadReg rD rS .noShift sf) =
      0x37#6 ++ rD.code ++ 0#4 ++ rS.code ++ 0#1 ++ 0#3 ++ 0#4 ++ sf.code ++ 0#4) ∧
    (∀ sf, sf ≠ .s → ∃ t, exec (.loadReg rD rS .noShift sf) s = .next t ∧ LoadNext rD (s.getReg rS) s t) ∧
    (∀ sf n, sf ≠ .s → exec (.loadReg rD rS (.lsl n) sf) s = .refused (.refuse .loadRegShiftNotInSource)) ∧
    ∀ sh, exec (.loadReg rD rS sh .s) s = .refused (.refuse .loadShiftFlagsNotInSource))

/-- R94, R95, R96: CMPI, CMPI, CMPR. No register is written. -/
def Obligations.CmpRules : Prop :=
  ImmRule .cmp .sub 0x0A#6 .cmpImm ∧ ShortRule .cmp .sub 0x2A#6 .cmpShort ∧ RegTestRule .cmp .sub 0x3A#6 .cmpReg

/-- R97, R98, R99: TSAI, TSAI, TSAR. No register is written. -/
def Obligations.TsaRules : Prop :=
  ImmRule .tsa .and 0x0C#6 .tsaImm ∧ ShortRule .tsa .and 0x2C#6 .tsaShort ∧ RegTestRule .tsa .and 0x3C#6 .tsaReg

/-- R100, R101, R102: TSXI, TSXI, TSXR. No register is written. -/
def Obligations.TsxRules : Prop :=
  ImmRule .tsx .xor 0x0E#6 .tsxImm ∧ ShortRule .tsx .xor 0x2E#6 .tsxShort ∧ RegTestRule .tsx .xor 0x3E#6 .tsxReg

/-- `44_test_compare.md`, introduction to CMP: how the flags relate the operands, for all three formats without a
shift. -/
def Obligations.CompareFlagRelations : Prop :=
  ∀ (i : Instr) (s : State) (a b : Word),
    (∃ r k, i = .cmpImm r k .a ∧ a = s.getReg r ∧ b = k) ∨
    (∃ r k, i = .cmpShort r k .noShift .a ∧ a = s.getReg r ∧ b = k.setWidth 16) ∨
    (∃ rA rB, i = .cmpReg rA rB .noShift .a ∧ a = s.getReg rA ∧ b = s.getReg rB) →
    ∃ t, exec i s = .next t ∧
      (t.sr.z = true ↔ a = b) ∧
      (t.sr.c = true ↔ b.toNat ≤ a.toNat) ∧
      (t.sr.c = true ∧ t.sr.z = false ↔ b.toNat < a.toNat) ∧
      (t.sr.n = t.sr.v ↔ b.toInt ≤ a.toInt) ∧
      (t.sr.n ≠ t.sr.v ↔ a.toInt < b.toInt)

/-- R70, corner cases (`90_conflicts.md` C10): adding 0xFFFF and subtracting 1 leave the same state, flags
included, for every `rD`. -/
def Obligations.AddMinusOneIsSubOne : Prop :=
  ∀ (r : Reg) (sf : SF) (s : State), exec (.addImm r 0xFFFF#16 sf) s = exec (.subImm r 0x0001#16 sf) s

/-- R83, R98, corner cases: with a zero-extended constant the result of the short AND is in 0..255, N is written 0,
and with `LSL #8` or more the result is 0 and Z is 1; TSA reports the same flags. -/
def Obligations.ShortAndIsLowByte : Prop :=
  ∀ (r : Reg) (k : Byte) (sh : Shift) (s : State),
    ∃ t u, exec (.andShort r k sh .a) s = .next t ∧ exec (.tsaShort r k sh .a) s = .next u ∧ u.sr = t.sr ∧
      (t.getReg r).toNat ≤ 255 ∧ t.sr.n = false ∧
      ∀ n, sh = .lsl n → 8 ≤ n.toNat → t.getReg r = 0#16 ∧ t.sr.z = true

/-- R49: the idioms, each an ordinary instruction: NOT, three ways to clear, shift left, test, copy, increment,
decrement, add carry only, multiply by 3 (with any registers). -/
def Obligations.Idioms : Prop :=
  ∀ (rD rS : Reg) (n : BitVec 4) (s : State),
    (∃ t, exec (.xorImm rD 0xFFFF#16 .a) s = .next t ∧ t.getReg rD = ~~~ (s.getReg rD)) ∧
    (∃ t, exec (.subReg rD rD rD .noShift .a) s = .next t ∧ t.getReg rD = 0#16) ∧
    (∃ t, exec (.loadImm rD 0#16 .a) s = .next t ∧ t.getReg rD = 0#16) ∧
    (∃ t, exec (.andImm rD 0#16 .a) s = .next t ∧ t.getReg rD = 0#16) ∧
    (∃ t, exec (.addShort rD 0#8 (.lsl n) .a) s = .next t ∧ t.getReg rD = s.getReg rD <<< n.toNat) ∧
    (∃ t, exec (.addImm rD 0#16 .a) s = .next t ∧ t.getReg rD = s.getReg rD ∧
      FlagsReport t (s.getReg rD) False False) ∧
    (∃ t, exec (.loadReg rD rS .noShift .a) s = .next t ∧ t.getReg rD = s.getReg rS) ∧
    (∃ t, exec (.addImm rD 1#16 .a) s = .next t ∧ t.getReg rD = s.getReg rD + 1#16) ∧
    (∃ t, exec (.subImm rD 1#16 .a) s = .next t ∧ t.getReg rD = s.getReg rD - 1#16) ∧
    (∃ t, exec (.adcImm rD 0#16 .a) s = .next t ∧
      t.getReg rD = if s.sr.c then s.getReg rD + 1#16 else s.getReg rD) ∧
    (∃ t, exec (.addReg rD rS rS (.lsl 1#4) .a) s = .next t ∧ t.getReg rD = 3#16 * s.getReg rS)

/-! ### Status overrides, frames and refusals (`40_common_alu.md` R57 to R62) -/

/-- R59: an instruction with `[N]` keeps the four flags and otherwise does what it does under `[A]`; CMP, TSA and TSX
with `[N]` change nothing but `pc` (the last clause is R59's own derivation). -/
def Obligations.OverrideNKeepsFlags : Prop :=
  ∀ (i : Instr) (s t : State), i.sf = .n → exec i s = .next t →
    t.sr = s.sr ∧
    (∃ u, exec (i.withSf .a) s = .next u ∧ t = { u with sr := s.sr }) ∧
    (i.op.isTest = true → t = { s with pc := s.pc + 1 })

/-- R58: `[S]` runs in the Short and Register formats of all operations but LOAD; it does what `[A]` does but for the
flags: N and Z are those of the shift result, C and V those of `ShiftCV`. Elsewhere it is refused. -/
def Obligations.OverrideSTakesShiftFlags : Prop :=
  ∀ (i : Instr) (s : State), i.sf = .s →
    (i.format = .imm → exec i s = .refused (.refuse .immFormatHasNoShifter)) ∧
    (i.format ≠ .imm → i.op = .load → exec i s = .refused (.refuse .loadShiftFlagsNotInSource)) ∧
    (∀ op r sh, op ≠ .load → ((∃ k, i.shape = .short op r k sh .s) ∨ ∃ rD rS2, i.shape = .reg op rD (some r) rS2 sh .s) →
      ∃ t u, exec i s = .next t ∧ exec (i.withSf .a) s = .next u ∧ t = { u with sr := t.sr } ∧
        FlagsReport t (shiftResult (s.getReg r) sh) ((Config.shiftCV sh (s.getReg r) s.sr.c s.sr.v).1 = true)
          ((Config.shiftCV sh (s.getReg r) s.sr.c s.sr.v).2 = true))

/-- R60: LOAD never writes a flag; `LOAD[S]` is refused. -/
def Obligations.LoadKeepsFlags : Prop :=
  ∀ (i : Instr) (s : State), i.op = .load →
    (∀ t, exec i s = .next t → t.sr = s.sr) ∧ (i.sf = .s → ∃ r, exec i s = .refused (.refuse r)) ∧
    (exec (i.withSf .a) s = exec (i.withSf .n) s)

/-- R62 with R30 and R110: an instruction that R30 does not refuse completes for every register and flag content, the
others are refused with R30's reason, and no instruction faults. -/
def Obligations.AdmittedCompletes : Prop :=
  ∀ (i : Instr) (s : State),
    (i.refusal = none → ∃ t, exec i s = .next t) ∧ (∀ r, i.refusal = some r → exec i s = .refused (.refuse r))

/-- R30's table: which instructions are refused, with which reason, in the table's order, and that no other instruction
is refused, for any reason. -/
def Obligations.RefusedCombinations : Prop :=
  ∀ (i : Instr) (s : State),
    (exec i s = .refused (.refuse .immFormatHasNoShifter) ↔ i.format = .imm ∧ i.sf = .s) ∧
    (exec i s = .refused (.refuse .loadShiftFlagsNotInSource) ↔ i.format ≠ .imm ∧ i.op = .load ∧ i.sf = .s) ∧
    (exec i s = .refused (.refuse .loadRegShiftNotInSource) ↔
      ∃ rD rS n, i = .loadReg rD rS (.lsl n) .a ∨ i = .loadReg rD rS (.lsl n) .n) ∧
    ((∃ x, exec i s = .refused x) ↔ i.refusal ≠ none)

/-- The frame of all 33 instructions: only the destination register changes (none for CMP, TSA, TSX), `PROGRAM` does
not change, and `pc` moves on by one (R61; `60_exceptions.md` R118; `20_memory.md` R20, R28). -/
def Obligations.EveryInstructionFrame : Prop :=
  ∀ (i : Instr) (s t : State), exec i s = .next t → Frame s t i.dest

/-- `10_state.md` R16: the register results of an instruction depend on no flag but C, and on C only for ADC and SBC;
under `[A]` its new flags do not either, and under `[S]` they depend on the old flags through C and V only. -/
def Obligations.FlagsReadOnlyThroughCarry : Prop :=
  ∀ (i : Instr) (s t : State) (sr : StatusRegister),
    (i.op = .adc ∨ i.op = .sbc → sr.c = s.sr.c) → exec i s = .next t →
    ∃ u, exec i { s with sr := sr } = .next u ∧ u.regs = t.regs ∧
      (i.sf = .a → i.op ≠ .load → u.sr = t.sr) ∧
      (i.sf = .s → sr.c = s.sr.c → sr.v = s.sr.v → u.sr = t.sr)

/-- R50: an instruction depends on no register but its sources: two states that agree on them agree afterwards on the
destination and the flags. -/
def Obligations.DependsOnlyOnSources : Prop :=
  ∀ (i : Instr) (s t : State) (x : Regs),
    (∀ r ∈ i.sources, State.getReg { s with regs := x } r = s.getReg r) → exec i s = .next t →
    ∃ u, exec i { s with regs := x } = .next u ∧ u.sr = t.sr ∧ ∀ r, i.dest = some r → u.getReg r = t.getReg r

/-! ### The step and the run (`10_state.md` R12, `60_exceptions.md` R110, `70_reset_and_hazards.md`) -/

/-- R61, R110: the entry at `pc` runs: a word that decodes is executed as the instruction read, a term as it is, and a
refused word is refused with the decoder's reason. -/
def Obligations.StepRunsDecoded : Prop :=
  ∀ (s : State) (w : InstrWord) (i : Instr) (r : RefuseReason),
    (s.program[s.pc]? = some (.word w) → decode w = .ok i → step s = exec i s) ∧
    (s.program[s.pc]? = some (.term i) → step s = exec i s) ∧
    (s.program[s.pc]? = some (.word w) → decode w = .error r → step s = .refused (.refuse r))

/-- R12 and R123: a step stops without an instruction exactly if `pc` is not inside the program, and at
`pc = len(PROGRAM)` it says that the run has ended. (Past the end is the model's own stop, log entry 6.) -/
def Obligations.RunEndsAtProgramEnd : Prop :=
  ∀ s : State, (step s = .fault .runEnded ↔ s.Final) ∧
    ((∃ f, step s = .fault f) ↔ s.program.length ≤ s.pc)

/-- The invariant of the program position, and R28: every step that answers a next state keeps `pc` within the program
or just past it, moves it on by one, and does not change `PROGRAM`. -/
def Obligations.StepKeepsProgramPosition : Prop :=
  ∀ s t : State, s.Inv → step s = .next t → t.Inv ∧ t.pc = s.pc + 1 ∧ t.program = s.program

/-- R120, R121: every launch state, whatever program, registers and flags the outside world supplies, starts at
`pc = 0` and meets the invariant; so does the model's reset state. -/
def Obligations.LaunchStartsAtZero : Prop :=
  (∀ (p : List ProgramEntry) (x : Regs) (sr : StatusRegister),
    let s := State.launch p x sr
    s.pc = 0 ∧ s.Inv ∧ s.program = p ∧ s.regs = x ∧ s.sr = sr) ∧
  State.reset.pc = 0 ∧ State.reset.Inv

/-- R123 and R118: from every state that meets the invariant, the run ends: after exactly as many steps as entries
remain it is at the end, with `PROGRAM` unchanged, or one of those steps was refused. -/
def Obligations.EveryRunEnds : Prop :=
  ∀ s : State, s.Inv →
    s.Completes ∨
    ∃ k u r, k < s.program.length - s.pc ∧ runSteps k s = .next u ∧ step u = .refused (.refuse r)

/-- R62 and R123: if the spec gives every entry from `pc` on a meaning, the run completes; and if the run completes,
every entry from `pc` on has one. -/
def Obligations.RunCompletesIffAdmitted : Prop :=
  ∀ s : State, s.Inv →
    (s.Completes ↔ ∀ k e, s.pc ≤ k → s.program[k]? = some e → e.Admitted)

/-- R123: "A run in which a step is refused never reaches a final state": neither before the refused step nor after, where
every further step is refused with the same reason. -/
def Obligations.RefusedRunNeverFinal : Prop :=
  ∀ (s u : State) (k : Nat) (r : Refusal), runSteps k s = .next u → step u = .refused r →
    ∀ n, (∀ v, runSteps n s = .next v → ¬ v.Final) ∧ (k < n → runSteps n s = .refused r)

/-- The model's interface (log entry 5): a placed word is the next entry fetched, and every other entry stays. -/
def Obligations.PlacedWordIsFetched : Prop :=
  ∀ (s : State) (w : Nat), w < 2 ^ 32 →
    (s.withFetchWord 32 w).program[s.pc]? = some (.word (BitVec.ofNat 32 w)) ∧
    (∀ k, k < s.program.length → k ≠ s.pc → (s.withFetchWord 32 w).program[k]? = s.program[k]?) ∧
    s.withFetchWord 32 w = { s with program := (s.withFetchWord 32 w).program } ∧
    ∀ i, decode (BitVec.ofNat 32 w) = .ok i →
      step (s.withFetchWord 32 w) = exec i (s.withFetchWord 32 w)
end

