-- ==== Sys2Proof/Laws/Assembler.lean ====
section
/-! SUPPORT. What the assembler makes of the constants and shift operands it reads back from an instruction
(`30_encoding.md` R46 to R48). -/

namespace Sys2Proof.Machine

/-- Every 16-bit constant lies in R47's range and is encoded as itself. -/
@[simp] theorem assembleImm_toNat (op : Op) (r : Reg) (k : Word) (sf : SF) :
    assembleImm op r k.toNat sf = .ok (.ofImm op r k sf) := by
  have h := k.isLt
  have hk : trunc16 (k.toNat : Int) = k := BitVec.eq_of_toNat_eq (by simp [trunc16, BitVec.ofInt]; omega)
  rw [assembleImm, if_pos (by omega), hk]

/-- Every 8-bit constant and shift amount lies in R47's ranges and is encoded as itself. -/
@[simp] theorem assembleShort_toNat (op : Op) (r : Reg) (k : Byte) (n : BitVec 4) (sf : SF) :
    assembleShort op r k.toNat n.toNat sf = .ok (.ofShort op r k (.lsl n) sf) := by
  have hk : BitVec.ofInt 8 (k.toNat : Int) = k := BitVec.eq_of_toNat_eq (by simp [BitVec.ofInt]; omega)
  rw [assembleShort, if_pos ⟨by omega, by omega, by omega⟩, hk, BitVec.ofNat_toNat, BitVec.setWidth_eq]

/-- A shift operand is read back as it is written. -/
@[simp] theorem shiftOperand_operands (sh : Shift) : shiftOperand (Shift.operands sh) = .ok sh := by
  cases sh with
  | noShift => rfl
  | lsl n => simp [Shift.operands, shiftOperand, show n.toNat ≤ 15 by omega]

end Sys2Proof.Machine
end

