-- ==== Sys2Proof/Laws/Decode.lean ====
section
/-! SUPPORT. The fields of the words the encoder writes, and the codes of registers, overrides, shifts and opcodes
read back. -/

namespace Sys2Proof

@[simp] theorem Reg.ofCode_code (r : Reg) : Reg.ofCode r.code = .ok r := by cases r <;> rfl

@[simp] theorem SF.ofCode_code (sf : SF) : SF.ofCode sf.code = .ok sf := by cases sf <;> rfl

@[simp] theorem Shift.ofFields_code (sh : Shift) : Shift.ofFields 0#1 sh.typeCode sh.count = .ok sh := by
  cases sh <;> rfl

@[simp] theorem lookupOpcode_opcodeOf (f : Format) (op : Op) : lookupOpcode (opcodeOf f op) = some (f, op) := by
  cases f <;> cases op <;> rfl

@[simp] theorem Instr.shape_ofImm (op : Op) (r : Reg) (k : Word) (sf : SF) :
    (Instr.ofImm op r k sf).shape = .imm op r k sf := by
  cases op <;> rfl

@[simp] theorem Instr.shape_ofShort (op : Op) (r : Reg) (k : Byte) (sh : Shift) (sf : SF) :
    (Instr.ofShort op r k sh sf).shape = .short op r k sh sf := by
  cases op <;> rfl

/-- A field above the low part of a word is a field of the high part. -/
theorem extract_above {v w : Nat} (x : BitVec v) (y : BitVec w) (start len : Nat) :
    @BitVec.extractLsb' (v + w) (start + w) len (x ++ y) = x.extractLsb' start len := by
  rw [BitVec.extractLsb'_append_eq_of_le (by omega)]
  simp

/-- The lowest part of a word. -/
theorem extract_low {v w : Nat} (x : BitVec v) (y : BitVec w) :
    @BitVec.extractLsb' (v + w) 0 w (x ++ y) = y :=
  (BitVec.extractLsb'_append_eq_of_add_le (by omega)).trans BitVec.extractLsb'_eq_self

/-- The highest part of a word. -/
theorem extract_high {v w : Nat} (x : BitVec v) (y : BitVec w) :
    @BitVec.extractLsb' (v + w) w v (x ++ y) = x := by
  simpa using extract_above x y 0 v

@[simp] theorem fieldCond_immWord (op : Op) (r : Reg) (k : Word) (sf : SF) :
    fieldCond (immWord op r k sf) = 0#4 :=
  extract_low _ _

@[simp] theorem fieldSf_immWord (op : Op) (r : Reg) (k : Word) (sf : SF) :
    fieldSf (immWord op r k sf) = sf.code :=
  (extract_above _ _ 0 2).trans (extract_low _ _)

@[simp] theorem fieldImm16_immWord (op : Op) (r : Reg) (k : Word) (sf : SF) :
    fieldImm16 (immWord op r k sf) = k :=
  (extract_above _ _ 2 16).trans ((extract_above _ _ 0 16).trans (extract_low _ _))

@[simp] theorem fieldRD_immWord (op : Op) (r : Reg) (k : Word) (sf : SF) :
    fieldRD (immWord op r k sf) = r.code :=
  (extract_above _ _ 18 4).trans ((extract_above _ _ 16 4).trans ((extract_above _ _ 0 4).trans (extract_low _ _)))

@[simp] theorem fieldOpcode_immWord (op : Op) (r : Reg) (k : Word) (sf : SF) :
    fieldOpcode (immWord op r k sf) = opcodeOf .imm op :=
  (extract_above _ _ 22 6).trans ((extract_above _ _ 20 6).trans ((extract_above _ _ 4 6).trans (extract_high _ _)))

@[simp] theorem fieldCond_shortWord (op : Op) (r : Reg) (k : Byte) (sh : Shift) (sf : SF) :
    fieldCond (shortWord op r k sh sf) = 0#4 :=
  extract_low _ _

@[simp] theorem fieldSf_shortWord (op : Op) (r : Reg) (k : Byte) (sh : Shift) (sf : SF) :
    fieldSf (shortWord op r k sh sf) = sf.code :=
  (extract_above _ _ 0 2).trans (extract_low _ _)

@[simp] theorem fieldShcnt_shortWord (op : Op) (r : Reg) (k : Byte) (sh : Shift) (sf : SF) :
    fieldShcnt (shortWord op r k sh sf) = sh.count :=
  (extract_above _ _ 2 4).trans ((extract_above _ _ 0 4).trans (extract_low _ _))

@[simp] theorem fieldShtype_shortWord (op : Op) (r : Reg) (k : Byte) (sh : Shift) (sf : SF) :
    fieldShtype (shortWord op r k sh sf) = sh.typeCode :=
  (extract_above _ _ 6 3).trans ((extract_above _ _ 4 3).trans ((extract_above _ _ 0 3).trans (extract_low _ _)))

@[simp] theorem fieldShsel_shortWord (op : Op) (r : Reg) (k : Byte) (sh : Shift) (sf : SF) :
    fieldShsel (shortWord op r k sh sf) = 0#1 :=
  (extract_above _ _ 9 1).trans ((extract_above _ _ 7 1).trans ((extract_above _ _ 3 1).trans ((extract_above _ _ 0 1).trans (extract_low _ _))))

@[simp] theorem fieldImm8_shortWord (op : Op) (r : Reg) (k : Byte) (sh : Shift) (sf : SF) :
    fieldImm8 (shortWord op r k sh sf) = k :=
  (extract_above _ _ 10 8).trans ((extract_above _ _ 8 8).trans ((extract_above _ _ 4 8).trans ((extract_above _ _ 1 8).trans ((extract_above _ _ 0 8).trans (extract_low _ _)))))

@[simp] theorem fieldRD_shortWord (op : Op) (r : Reg) (k : Byte) (sh : Shift) (sf : SF) :
    fieldRD (shortWord op r k sh sf) = r.code :=
  (extract_above _ _ 18 4).trans ((extract_above _ _ 16 4).trans ((extract_above _ _ 12 4).trans ((extract_above _ _ 9 4).trans ((extract_above _ _ 8 4).trans ((extract_above _ _ 0 4).trans (extract_low _ _))))))

@[simp] theorem fieldOpcode_shortWord (op : Op) (r : Reg) (k : Byte) (sh : Shift) (sf : SF) :
    fieldOpcode (shortWord op r k sh sf) = opcodeOf .short op :=
  (extract_above _ _ 22 6).trans ((extract_above _ _ 20 6).trans ((extract_above _ _ 16 6).trans ((extract_above _ _ 13 6).trans ((extract_above _ _ 12 6).trans ((extract_above _ _ 4 6).trans (extract_high _ _))))))

@[simp] theorem fieldCond_regWord (op : Op) (rD rS1 : Option Reg) (rS2 : Reg) (sh : Shift) (sf : SF) :
    fieldCond (regWord op rD rS1 rS2 sh sf) = 0#4 :=
  extract_low _ _

@[simp] theorem fieldSf_regWord (op : Op) (rD rS1 : Option Reg) (rS2 : Reg) (sh : Shift) (sf : SF) :
    fieldSf (regWord op rD rS1 rS2 sh sf) = sf.code :=
  (extract_above _ _ 0 2).trans (extract_low _ _)

@[simp] theorem fieldShcnt_regWord (op : Op) (rD rS1 : Option Reg) (rS2 : Reg) (sh : Shift) (sf : SF) :
    fieldShcnt (regWord op rD rS1 rS2 sh sf) = sh.count :=
  (extract_above _ _ 2 4).trans ((extract_above _ _ 0 4).trans (extract_low _ _))

@[simp] theorem fieldShtype_regWord (op : Op) (rD rS1 : Option Reg) (rS2 : Reg) (sh : Shift) (sf : SF) :
    fieldShtype (regWord op rD rS1 rS2 sh sf) = sh.typeCode :=
  (extract_above _ _ 6 3).trans ((extract_above _ _ 4 3).trans ((extract_above _ _ 0 3).trans (extract_low _ _)))

@[simp] theorem fieldShsel_regWord (op : Op) (rD rS1 : Option Reg) (rS2 : Reg) (sh : Shift) (sf : SF) :
    fieldShsel (regWord op rD rS1 rS2 sh sf) = 0#1 :=
  (extract_above _ _ 9 1).trans ((extract_above _ _ 7 1).trans ((extract_above _ _ 3 1).trans ((extract_above _ _ 0 1).trans (extract_low _ _))))

@[simp] theorem fieldRS2_regWord (op : Op) (rD rS1 : Option Reg) (rS2 : Reg) (sh : Shift) (sf : SF) :
    fieldRS2 (regWord op rD rS1 rS2 sh sf) = rS2.code :=
  (extract_above _ _ 10 4).trans ((extract_above _ _ 8 4).trans ((extract_above _ _ 4 4).trans ((extract_above _ _ 1 4).trans ((extract_above _ _ 0 4).trans (extract_low _ _)))))

@[simp] theorem fieldRS1_regWord (op : Op) (rD rS1 : Option Reg) (rS2 : Reg) (sh : Shift) (sf : SF) :
    fieldRS1 (regWord op rD rS1 rS2 sh sf) = Reg.codeOrZero rS1 :=
  (extract_above _ _ 14 4).trans ((extract_above _ _ 12 4).trans ((extract_above _ _ 8 4).trans ((extract_above _ _ 5 4).trans ((extract_above _ _ 4 4).trans ((extract_above _ _ 0 4).trans (extract_low _ _))))))

@[simp] theorem fieldRD_regWord (op : Op) (rD rS1 : Option Reg) (rS2 : Reg) (sh : Shift) (sf : SF) :
    fieldRD (regWord op rD rS1 rS2 sh sf) = Reg.codeOrZero rD :=
  (extract_above _ _ 18 4).trans ((extract_above _ _ 16 4).trans ((extract_above _ _ 12 4).trans ((extract_above _ _ 9 4).trans ((extract_above _ _ 8 4).trans ((extract_above _ _ 4 4).trans ((extract_above _ _ 0 4).trans (extract_low _ _)))))))

@[simp] theorem fieldOpcode_regWord (op : Op) (rD rS1 : Option Reg) (rS2 : Reg) (sh : Shift) (sf : SF) :
    fieldOpcode (regWord op rD rS1 rS2 sh sf) = opcodeOf .reg op :=
  (extract_above _ _ 22 6).trans ((extract_above _ _ 20 6).trans ((extract_above _ _ 16 6).trans ((extract_above _ _ 13 6).trans ((extract_above _ _ 12 6).trans ((extract_above _ _ 8 6).trans ((extract_above _ _ 4 6).trans (extract_high _ _)))))))

end Sys2Proof
end

