-- ==== Sys2Proof/Laws/Operands.lean ====
section
/-! SUPPORT. The value primitives in Lean's own bit-vector terms. -/

namespace Sys2Proof.Machine

/-- `sval` is the signed reading of a bit vector. -/
theorem sval_eq_toInt (v : Word) : sval v = v.toInt := by
  unfold sval
  rw [BitVec.toInt_eq_toNat_cond]
  split <;> split <;> omega

/-- `trunc_16` of a natural number. -/
theorem trunc16_natCast (n : Nat) : trunc16 (n : Int) = BitVec.ofNat 16 n := by
  simp [trunc16]

/-- `zext_16` keeps the number. -/
@[simp] theorem zext16_toNat (v : Byte) : (zext16 v).toNat = v.toNat := by
  simp only [zext16, BitVec.toNat_setWidth]
  have := v.isLt
  omega

/-- `LSL16` is the left shift of 16-bit values. -/
theorem lsl16_eq_shiftLeft (v : Word) (n : BitVec 4) : lsl16 v n = v <<< n.toNat := by
  apply BitVec.eq_of_toNat_eq
  have h : ((v.toNat : Int) * 2 ^ n.toNat) = ((v.toNat * 2 ^ n.toNat : Nat) : Int) := by push_cast; rfl
  rw [lsl16, h, trunc16_natCast, BitVec.toNat_ofNat, BitVec.toNat_shiftLeft, Nat.shiftLeft_eq]

/-- A bit counts as Lean's `Bool.toNat` does. -/
@[simp] theorem bitVal_eq_toNat (b : Bool) : bitVal b = b.toNat := by
  cases b <;> rfl

/-- The signed overflow test, read as a proposition. -/
@[simp] theorem signedOverflow_iff (n : Int) : signedOverflow n = true ↔ n < -32768 ∨ n > 32767 := by
  simp [signedOverflow]

end Sys2Proof.Machine
end

