-- ==== Sys2Proof/Laws/State.lean ====
section
/-! SUPPORT. What each update of the state does to each field, and reading a register after a write. -/

namespace Sys2Proof.Machine

@[simp] theorem State.setReg_sr (s : State) (r : Reg) (v : Word) : (s.setReg r v).sr = s.sr := rfl
@[simp] theorem State.setReg_pc (s : State) (r : Reg) (v : Word) : (s.setReg r v).pc = s.pc := rfl
@[simp] theorem State.setReg_program (s : State) (r : Reg) (v : Word) : (s.setReg r v).program = s.program := rfl
@[simp] theorem State.setReg_regs (s : State) (r : Reg) (v : Word) : (s.setReg r v).regs = s.regs.write r v := rfl

@[simp] theorem State.setSr_regs (s : State) (sr : StatusRegister) : (s.setSr sr).regs = s.regs := rfl
@[simp] theorem State.setSr_sr (s : State) (sr : StatusRegister) : (s.setSr sr).sr = sr := rfl
@[simp] theorem State.setSr_pc (s : State) (sr : StatusRegister) : (s.setSr sr).pc = s.pc := rfl
@[simp] theorem State.setSr_program (s : State) (sr : StatusRegister) : (s.setSr sr).program = s.program := rfl

@[simp] theorem State.advance_regs (s : State) : s.advance.regs = s.regs := rfl
@[simp] theorem State.advance_sr (s : State) : s.advance.sr = s.sr := rfl
@[simp] theorem State.advance_pc (s : State) : s.advance.pc = s.pc + 1 := rfl
@[simp] theorem State.advance_program (s : State) : s.advance.program = s.program := rfl

@[simp] theorem State.setDest_some (s : State) (r : Reg) (v : Word) : s.setDest (some r) v = s.setReg r v := rfl
@[simp] theorem State.setDest_none (s : State) (v : Word) : s.setDest none v = s := rfl

@[simp] theorem State.setDest_sr (s : State) (d : Option Reg) (v : Word) : (s.setDest d v).sr = s.sr := by
  cases d <;> rfl

@[simp] theorem State.setDest_pc (s : State) (d : Option Reg) (v : Word) : (s.setDest d v).pc = s.pc := by
  cases d <;> rfl

@[simp] theorem State.setDest_program (s : State) (d : Option Reg) (v : Word) :
    (s.setDest d v).program = s.program := by
  cases d <;> rfl

@[simp] theorem State.getReg_setSr (s : State) (sr : StatusRegister) (r : Reg) :
    (s.setSr sr).getReg r = s.getReg r := by
  cases r <;> rfl

@[simp] theorem State.getReg_advance (s : State) (r : Reg) : s.advance.getReg r = s.getReg r := by
  cases r <;> rfl

/-- Reading a register after writing it gives the value written. -/
@[simp] theorem State.getReg_setReg_same (s : State) (r : Reg) (v : Word) : (s.setReg r v).getReg r = v := by
  cases r <;> rfl

/-- Writing a register leaves every other register alone. -/
theorem State.getReg_setReg_other (s : State) {r q : Reg} (v : Word) (h : r ≠ q) :
    (s.setReg r v).getReg q = s.getReg q := by
  cases r <;> cases q <;> first | rfl | exact absurd rfl h

/-- Writing the destination leaves every other register alone. -/
theorem State.getReg_setDest_other (s : State) {d : Option Reg} {q : Reg} (v : Word) (h : d ≠ some q) :
    (s.setDest d v).getReg q = s.getReg q := by
  cases d with
  | none => rfl
  | some r => exact s.getReg_setReg_other v fun e => h (congrArg some e)

/-- Two register files that read the same everywhere are the same. -/
theorem Regs.ext_getReg {s t : State} (h : ∀ r, s.getReg r = t.getReg r) : s.regs = t.regs := by
  rcases s with ⟨⟨⟩, _, _, _⟩
  rcases t with ⟨⟨⟩, _, _, _⟩
  have h1 := h .r1
  have h2 := h .r2
  have h3 := h .r3
  have h4 := h .r4
  have h5 := h .r5
  have h6 := h .r6
  have h7 := h .r7
  simp_all [State.getReg]

end Sys2Proof.Machine
end

