-- ==== Sys2Proof/Laws/Ops.lean ====
section
/-! SUPPORT. One lemma for each shared operation that says all it can do; the proofs cite these and do not unfold. -/

namespace Sys2Proof.Machine

@[simp] theorem aluStep_pc (f : AluFn) (d : Option Reg) (a : Word) (sh : Shift) (b : Word) (sf : SF) (s : State) :
    (aluStep f d a sh b sf s).pc = s.pc + 1 := by
  simp [aluStep]

@[simp] theorem aluStep_program (f : AluFn) (d : Option Reg) (a : Word) (sh : Shift) (b : Word) (sf : SF) (s : State) :
    (aluStep f d a sh b sf s).program = s.program := by
  simp [aluStep]

@[simp] theorem aluStep_sr (f : AluFn) (d : Option Reg) (a : Word) (sh : Shift) (b : Word) (sf : SF) (s : State) :
    (aluStep f d a sh b sf s).sr = updateFlags sf (f (shifted a sh) b s.sr.c) sh a s.sr := by
  simp [aluStep]

/-- The destination receives the ALU result, whatever the override. -/
@[simp] theorem aluStep_getReg_dest (f : AluFn) (r : Reg) (a : Word) (sh : Shift) (b : Word) (sf : SF) (s : State) :
    (aluStep f (some r) a sh b sf s).getReg r = (f (shifted a sh) b s.sr.c).result := by
  simp [aluStep]

/-- Every other register is unchanged. -/
theorem aluStep_getReg_other (f : AluFn) {d : Option Reg} {q : Reg} (a : Word) (sh : Shift) (b : Word) (sf : SF)
    (s : State) (h : d ≠ some q) : (aluStep f d a sh b sf s).getReg q = s.getReg q := by
  simp [aluStep, State.getReg_setDest_other _ _ h]

@[simp] theorem loadStep_pc (r : Reg) (v : Word) (s : State) : (loadStep r v s).pc = s.pc + 1 := rfl
@[simp] theorem loadStep_program (r : Reg) (v : Word) (s : State) : (loadStep r v s).program = s.program := rfl
@[simp] theorem loadStep_sr (r : Reg) (v : Word) (s : State) : (loadStep r v s).sr = s.sr := rfl

@[simp] theorem loadStep_getReg_dest (r : Reg) (v : Word) (s : State) : (loadStep r v s).getReg r = v := by
  simp [loadStep]

/-- LOAD leaves every other register alone. -/
theorem loadStep_getReg_other {r q : Reg} (v : Word) (s : State) (h : r ≠ q) :
    (loadStep r v s).getReg q = s.getReg q := by
  simp [loadStep, State.getReg_setReg_other _ _ h]

/-- What an Immediate-format instruction other than LOAD can do. -/
theorem aluImm_cases (f : AluFn) (d : Option Reg) (r : Reg) (k : Word) (sf : SF) (s : State) :
    (sf = .s ∧ aluImm f d r k sf s = refuse .immFormatHasNoShifter) ∨
    (sf ≠ .s ∧ aluImm f d r k sf s = .next (aluStep f d (s.getReg r) .noShift k sf s)) := by
  cases sf <;> simp [aluImm, immOperand]

/-- A Short-Immediate-format instruction other than LOAD always completes. -/
theorem aluShort_eq (f : AluFn) (d : Option Reg) (r : Reg) (k : Byte) (sh : Shift) (sf : SF) (s : State) :
    aluShort f d r k sh sf s = .next (aluStep f d (s.getReg r) sh (zext16 k) sf s) := rfl

/-- A Register-format instruction other than LOAD always completes. -/
theorem aluReg_eq (f : AluFn) (d : Option Reg) (rS1 rS2 : Reg) (sh : Shift) (sf : SF) (s : State) :
    aluReg f d rS1 rS2 sh sf s = .next (aluStep f d (s.getReg rS1) sh (s.getReg rS2) sf s) := rfl

/-- What LOAD can do in the Immediate format. -/
theorem execLoadImm_cases (r : Reg) (k : Word) (sf : SF) (s : State) :
    (sf = .s ∧ execLoadImm r k sf s = refuse .immFormatHasNoShifter) ∨
    (sf ≠ .s ∧ execLoadImm r k sf s = .next (loadStep r k s)) := by
  cases sf <;> simp [execLoadImm, immOperand]

/-- What LOAD can do in the Short Immediate format. -/
theorem execLoadShort_cases (r : Reg) (k : Byte) (sh : Shift) (sf : SF) (s : State) :
    (sf = .s ∧ execLoadShort r k sh sf s = refuse .loadShiftFlagsNotInSource) ∨
    (sf ≠ .s ∧ execLoadShort r k sh sf s = .next (loadStep r (shifted (zext16 k) sh) s)) := by
  cases sf <;> simp [execLoadShort, shortOperand]

/-- What LOAD can do in the Register format. -/
theorem execLoadReg_cases (rD rS : Reg) (sh : Shift) (sf : SF) (s : State) :
    (sf = .s ∧ execLoadReg rD rS sh sf s = refuse .loadShiftFlagsNotInSource) ∨
    (sf ≠ .s ∧ sh ≠ .noShift ∧ execLoadReg rD rS sh sf s = refuse .loadRegShiftNotInSource) ∨
    (sf ≠ .s ∧ sh = .noShift ∧ execLoadReg rD rS sh sf s = .next (loadStep rD (s.getReg rS) s)) := by
  cases sf <;> cases sh <;> simp [execLoadReg]

end Sys2Proof.Machine
end

