-- ==== Sys2Proof/Laws/PerInstr.lean ====
section
/-! SUPPORT. Facts about every instruction, one lemma per constructor. -/

namespace Sys2Proof.Laws

/-- The opcode field of an instruction's word is the opcode of its format and operation (`30_encoding.md` R32), its `sf`
field is its override's (R36) and its `cond` field is 0 (R37). -/
def OpcodeField.Statement (i : Instr) : Prop :=
  fieldOpcode (encode i) = opcodeOf i.format i.op ∧ fieldSf (encode i) = i.sf.code ∧ fieldCond (encode i) = 0#4

/-- The Immediate format. -/
theorem opcodeField_imm (op : Op) (r : Reg) (k : Word) (sf : SF) :
    fieldOpcode (immWord op r k sf) = opcodeOf .imm op ∧ fieldSf (immWord op r k sf) = sf.code ∧
      fieldCond (immWord op r k sf) = 0#4 := by
  simp

/-- The Short Immediate format. -/
theorem opcodeField_short (op : Op) (r : Reg) (k : Byte) (sh : Shift) (sf : SF) :
    fieldOpcode (shortWord op r k sh sf) = opcodeOf .short op ∧ fieldSf (shortWord op r k sh sf) = sf.code ∧
      fieldCond (shortWord op r k sh sf) = 0#4 := by
  simp

/-- The Register format. -/
theorem opcodeField_reg (op : Op) (rD rS1 : Option Reg) (rS2 : Reg) (sh : Shift) (sf : SF) :
    fieldOpcode (regWord op rD rS1 rS2 sh sf) = opcodeOf .reg op ∧
      fieldSf (regWord op rD rS1 rS2 sh sf) = sf.code ∧ fieldCond (regWord op rD rS1 rS2 sh sf) = 0#4 := by
  simp

theorem OpcodeField.addImm (rD : Reg) (imm16 : Word) (sf : SF) :
    OpcodeField.Statement (.addImm rD imm16 sf) :=
  opcodeField_imm .add rD imm16 sf

theorem OpcodeField.addShort (rD : Reg) (imm8 : Byte) (sh : Shift) (sf : SF) :
    OpcodeField.Statement (.addShort rD imm8 sh sf) :=
  opcodeField_short .add rD imm8 sh sf

theorem OpcodeField.addReg (rD rS1 rS2 : Reg) (sh : Shift) (sf : SF) :
    OpcodeField.Statement (.addReg rD rS1 rS2 sh sf) :=
  opcodeField_reg .add (some rD) (some rS1) rS2 sh sf

theorem OpcodeField.adcImm (rD : Reg) (imm16 : Word) (sf : SF) :
    OpcodeField.Statement (.adcImm rD imm16 sf) :=
  opcodeField_imm .adc rD imm16 sf

theorem OpcodeField.adcShort (rD : Reg) (imm8 : Byte) (sh : Shift) (sf : SF) :
    OpcodeField.Statement (.adcShort rD imm8 sh sf) :=
  opcodeField_short .adc rD imm8 sh sf

theorem OpcodeField.adcReg (rD rS1 rS2 : Reg) (sh : Shift) (sf : SF) :
    OpcodeField.Statement (.adcReg rD rS1 rS2 sh sf) :=
  opcodeField_reg .adc (some rD) (some rS1) rS2 sh sf

theorem OpcodeField.subImm (rD : Reg) (imm16 : Word) (sf : SF) :
    OpcodeField.Statement (.subImm rD imm16 sf) :=
  opcodeField_imm .sub rD imm16 sf

theorem OpcodeField.subShort (rD : Reg) (imm8 : Byte) (sh : Shift) (sf : SF) :
    OpcodeField.Statement (.subShort rD imm8 sh sf) :=
  opcodeField_short .sub rD imm8 sh sf

theorem OpcodeField.subReg (rD rS1 rS2 : Reg) (sh : Shift) (sf : SF) :
    OpcodeField.Statement (.subReg rD rS1 rS2 sh sf) :=
  opcodeField_reg .sub (some rD) (some rS1) rS2 sh sf

theorem OpcodeField.sbcImm (rD : Reg) (imm16 : Word) (sf : SF) :
    OpcodeField.Statement (.sbcImm rD imm16 sf) :=
  opcodeField_imm .sbc rD imm16 sf

theorem OpcodeField.sbcShort (rD : Reg) (imm8 : Byte) (sh : Shift) (sf : SF) :
    OpcodeField.Statement (.sbcShort rD imm8 sh sf) :=
  opcodeField_short .sbc rD imm8 sh sf

theorem OpcodeField.sbcReg (rD rS1 rS2 : Reg) (sh : Shift) (sf : SF) :
    OpcodeField.Statement (.sbcReg rD rS1 rS2 sh sf) :=
  opcodeField_reg .sbc (some rD) (some rS1) rS2 sh sf

theorem OpcodeField.andImm (rD : Reg) (imm16 : Word) (sf : SF) :
    OpcodeField.Statement (.andImm rD imm16 sf) :=
  opcodeField_imm .and rD imm16 sf

theorem OpcodeField.andShort (rD : Reg) (imm8 : Byte) (sh : Shift) (sf : SF) :
    OpcodeField.Statement (.andShort rD imm8 sh sf) :=
  opcodeField_short .and rD imm8 sh sf

theorem OpcodeField.andReg (rD rS1 rS2 : Reg) (sh : Shift) (sf : SF) :
    OpcodeField.Statement (.andReg rD rS1 rS2 sh sf) :=
  opcodeField_reg .and (some rD) (some rS1) rS2 sh sf

theorem OpcodeField.orrImm (rD : Reg) (imm16 : Word) (sf : SF) :
    OpcodeField.Statement (.orrImm rD imm16 sf) :=
  opcodeField_imm .orr rD imm16 sf

theorem OpcodeField.orrShort (rD : Reg) (imm8 : Byte) (sh : Shift) (sf : SF) :
    OpcodeField.Statement (.orrShort rD imm8 sh sf) :=
  opcodeField_short .orr rD imm8 sh sf

theorem OpcodeField.orrReg (rD rS1 rS2 : Reg) (sh : Shift) (sf : SF) :
    OpcodeField.Statement (.orrReg rD rS1 rS2 sh sf) :=
  opcodeField_reg .orr (some rD) (some rS1) rS2 sh sf

theorem OpcodeField.xorImm (rD : Reg) (imm16 : Word) (sf : SF) :
    OpcodeField.Statement (.xorImm rD imm16 sf) :=
  opcodeField_imm .xor rD imm16 sf

theorem OpcodeField.xorShort (rD : Reg) (imm8 : Byte) (sh : Shift) (sf : SF) :
    OpcodeField.Statement (.xorShort rD imm8 sh sf) :=
  opcodeField_short .xor rD imm8 sh sf

theorem OpcodeField.xorReg (rD rS1 rS2 : Reg) (sh : Shift) (sf : SF) :
    OpcodeField.Statement (.xorReg rD rS1 rS2 sh sf) :=
  opcodeField_reg .xor (some rD) (some rS1) rS2 sh sf

theorem OpcodeField.loadImm (rD : Reg) (imm16 : Word) (sf : SF) :
    OpcodeField.Statement (.loadImm rD imm16 sf) :=
  opcodeField_imm .load rD imm16 sf

theorem OpcodeField.loadShort (rD : Reg) (imm8 : Byte) (sh : Shift) (sf : SF) :
    OpcodeField.Statement (.loadShort rD imm8 sh sf) :=
  opcodeField_short .load rD imm8 sh sf

theorem OpcodeField.loadReg (rD rS : Reg) (sh : Shift) (sf : SF) :
    OpcodeField.Statement (.loadReg rD rS sh sf) :=
  opcodeField_reg .load (some rD) none rS sh sf

theorem OpcodeField.cmpImm (rS : Reg) (imm16 : Word) (sf : SF) :
    OpcodeField.Statement (.cmpImm rS imm16 sf) :=
  opcodeField_imm .cmp rS imm16 sf

theorem OpcodeField.cmpShort (rS : Reg) (imm8 : Byte) (sh : Shift) (sf : SF) :
    OpcodeField.Statement (.cmpShort rS imm8 sh sf) :=
  opcodeField_short .cmp rS imm8 sh sf

theorem OpcodeField.cmpReg (rS1 rS2 : Reg) (sh : Shift) (sf : SF) :
    OpcodeField.Statement (.cmpReg rS1 rS2 sh sf) :=
  opcodeField_reg .cmp none (some rS1) rS2 sh sf

theorem OpcodeField.tsaImm (rS : Reg) (imm16 : Word) (sf : SF) :
    OpcodeField.Statement (.tsaImm rS imm16 sf) :=
  opcodeField_imm .tsa rS imm16 sf

theorem OpcodeField.tsaShort (rS : Reg) (imm8 : Byte) (sh : Shift) (sf : SF) :
    OpcodeField.Statement (.tsaShort rS imm8 sh sf) :=
  opcodeField_short .tsa rS imm8 sh sf

theorem OpcodeField.tsaReg (rS1 rS2 : Reg) (sh : Shift) (sf : SF) :
    OpcodeField.Statement (.tsaReg rS1 rS2 sh sf) :=
  opcodeField_reg .tsa none (some rS1) rS2 sh sf

theorem OpcodeField.tsxImm (rS : Reg) (imm16 : Word) (sf : SF) :
    OpcodeField.Statement (.tsxImm rS imm16 sf) :=
  opcodeField_imm .tsx rS imm16 sf

theorem OpcodeField.tsxShort (rS : Reg) (imm8 : Byte) (sh : Shift) (sf : SF) :
    OpcodeField.Statement (.tsxShort rS imm8 sh sf) :=
  opcodeField_short .tsx rS imm8 sh sf

theorem OpcodeField.tsxReg (rS1 rS2 : Reg) (sh : Shift) (sf : SF) :
    OpcodeField.Statement (.tsxReg rS1 rS2 sh sf) :=
  opcodeField_reg .tsx none (some rS1) rS2 sh sf

end Sys2Proof.Laws
end

