-- ==== Sys2Proof/Laws/Step.lean ====
section
/-! SUPPORT. What a step can do, by what stands at the program position. -/

namespace Sys2Proof.Machine

/-- Fetching an instruction means that an entry stands at `pc` and stands for it. -/
theorem fetch_instr {s : State} {i : Instr} (h : s.fetch = .instr i) :
    ∃ e, s.program[s.pc]? = some e ∧ decodeEntry e = .ok i := by
  unfold State.fetch at h
  split at h
  case h_1 e he =>
    split at h
    case h_1 j hd =>
      cases h
      exact ⟨e, he, hd⟩
    case h_2 => cases h
  case h_2 => split at h <;> cases h

/-- A step that answers a next state ran the instruction at `pc`. -/
theorem step_next {s t : State} (h : step s = .next t) :
    ∃ e i, s.program[s.pc]? = some e ∧ decodeEntry e = .ok i ∧ exec i s = .next t := by
  unfold step at h
  split at h
  case h_1 i hf =>
    obtain ⟨e, he, hd⟩ := fetch_instr hf
    exact ⟨e, i, he, hd, h⟩
  all_goals cases h

/-- A step at an entry that stands for an instruction is that instruction's meaning. -/
theorem step_of_entry {s : State} {e : ProgramEntry} {i : Instr} (he : s.program[s.pc]? = some e)
    (hd : decodeEntry e = .ok i) : step s = exec i s := by
  simp [step, State.fetch, he, hd]

end Sys2Proof.Machine
end

