-- ==== Sys2Proof/Tests/Slice0.lean ====
section
/-! SUPPORT. Tests: ill-formed terms, words written out from the spec's encoding, refused words, one-step results,
the assembler, and for each statement with hypotheses a state and operands that meet them. Every expected result is
taken from `95_test_vectors.md` or from the rule named. -/

namespace Sys2Proof.Tests

open Sys2Proof.Machine

/-! ### The checks on a term (`30_encoding.md` R30) -/

theorem test_imm_with_s_is_ill_formed :
    ¬ (Instr.addImm .r1 0x0064#16 .s).WellFormed ∧ (Instr.loadImm .r1 5#16 .s).refusal = some .immFormatHasNoShifter := by
  decide

theorem test_load_with_s_is_ill_formed :
    ¬ (Instr.loadShort .r1 0x12#8 (.lsl 8#4) .s).WellFormed ∧
    (Instr.loadReg .r2 .r1 (.lsl 1#4) .s).refusal = some .loadShiftFlagsNotInSource := by decide

theorem test_load_reg_with_shift_is_ill_formed :
    (Instr.loadReg .r2 .r1 (.lsl 1#4) .a).refusal = some .loadRegShiftNotInSource ∧
    ¬ (Instr.loadReg .r2 .r1 (.lsl 0#4) .n).WellFormed ∧ (Instr.loadReg .r2 .r1 .noShift .a).WellFormed := by decide

/-! ### Decoding: the words of the spec (`95_test_vectors.md` sections 1 to 6), one for each constructor -/

theorem test_decode_add :
    decode 0x00401900#32 = .ok (.addImm .r1 0x0064#16 .a) ∧
    decode 0x80404700#32 = .ok (.addShort .r1 0x01#8 (.lsl 12#4) .a) ∧
    decode 0xC0C48000#32 = .ok (.addReg .r3 .r1 .r2 .noShift .a) := by decide

theorem test_decode_adc :
    decode 0x04400000#32 = .ok (.adcImm .r1 0x0000#16 .a) ∧
    decode 0x84804500#32 = .ok (.adcShort .r2 0x01#8 (.lsl 4#4) .a) ∧
    decode 0xC44D4000#32 = .ok (.adcReg .r1 .r3 .r5 .noShift .a) := by decide

theorem test_decode_sub :
    decode 0x09C00040#32 = .ok (.subImm .r7 0x0001#16 .a) ∧
    decode 0x8880C480#32 = .ok (.subShort .r2 0x03#8 (.lsl 2#4) .a) ∧
    decode 0xC8918000#32 = .ok (.subReg .r2 .r4 .r6 .noShift .a) := by decide

theorem test_decode_sbc :
    decode 0x0C400000#32 = .ok (.sbcImm .r1 0x0000#16 .a) ∧
    decode 0x8C804440#32 = .ok (.sbcShort .r2 0x01#8 (.lsl 1#4) .a) ∧
    decode 0xCC4D4000#32 = .ok (.sbcReg .r1 .r3 .r5 .noShift .a) := by decide

theorem test_decode_and :
    decode 0x10BFF7C0#32 = .ok (.andImm .r2 0xFFDF#16 .a) ∧
    decode 0x907C0500#32 = .ok (.andShort .r1 0xF0#8 (.lsl 4#4) .a) ∧
    decode 0xD048C500#32 = .ok (.andReg .r1 .r2 .r3 (.lsl 4#4) .a) := by decide

theorem test_decode_orr :
    decode 0x14402000#32 = .ok (.orrImm .r1 0x0080#16 .a) ∧
    decode 0x944D0600#32 = .ok (.orrShort .r1 0x34#8 (.lsl 8#4) .a) ∧
    decode 0xD4450000#32 = .ok (.orrReg .r1 .r1 .r4 .noShift .a) := by decide

theorem test_decode_xor :
    decode 0x18400200#32 = .ok (.xorImm .r1 0x0008#16 .a) ∧
    decode 0x987FC7D0#32 = .ok (.xorShort .r1 0xFF#8 (.lsl 15#4) .s) ∧
    decode 0xD8848000#32 = .ok (.xorReg .r2 .r1 .r2 .noShift .a) := by decide

theorem test_decode_load :
    decode 0x1DFFFFE0#32 = .ok (.loadImm .r7 0xFFFF#16 .n) ∧
    decode 0x9C448600#32 = .ok (.loadShort .r1 0x12#8 (.lsl 8#4) .a) ∧
    decode 0xDC804000#32 = .ok (.loadReg .r2 .r1 .noShift .a) := by decide

theorem test_decode_cmp :
    decode 0x28400280#32 = .ok (.cmpImm .r1 0x000A#16 .a) ∧
    decode 0xA8414440#32 = .ok (.cmpShort .r1 0x05#8 (.lsl 1#4) .a) ∧
    decode 0xE808C000#32 = .ok (.cmpReg .r2 .r3 .noShift .a) := by decide

theorem test_decode_tsa :
    decode 0x30FC0000#32 = .ok (.tsaImm .r3 0xF000#16 .a) ∧
    decode 0xB0600500#32 = .ok (.tsaShort .r1 0x80#8 (.lsl 4#4) .a) ∧
    decode 0xF0048500#32 = .ok (.tsaReg .r1 .r2 (.lsl 4#4) .a) := by decide

theorem test_decode_tsx :
    decode 0x38C02A80#32 = .ok (.tsxImm .r3 0x00AA#16 .a) ∧
    decode 0xB86A8440#32 = .ok (.tsxShort .r1 0xAA#8 (.lsl 1#4) .a) ∧
    decode 0xF8048600#32 = .ok (.tsxReg .r1 .r2 (.lsl 8#4) .a) := by decide

/-- No shift and `LSL #0` are two words and two instructions (section 6.1). -/
theorem test_decode_no_shift_is_not_lsl_0 :
    decode 0x80404000#32 = .ok (.addShort .r1 0x01#8 .noShift .a) ∧
    decode 0x80404400#32 = .ok (.addShort .r1 0x01#8 (.lsl 0#4) .a) := by decide

/-- The three layouts of R31, field by field: opcode, rD, then imm16 | imm8 | rS1, rS2, then shsel, shtype, shcnt, then
sf, cond. -/
theorem test_decode_bit_by_bit :
    decode (0b000000#6 ++ 0b0100#4 ++ 0b0000000000000001#16 ++ 0b10#2 ++ 0b0000#4) = .ok (.addImm .r4 1#16 .n) ∧
    decode (0b100101#6 ++ 0b0001#4 ++ 0b00110100#8 ++ 0b0#1 ++ 0b001#3 ++ 0b1000#4 ++ 0b00#2 ++ 0b0000#4) =
      .ok (.orrShort .r1 0x34#8 (.lsl 8#4) .a) ∧
    decode (0b110000#6 ++ 0b0100#4 ++ 0b0101#4 ++ 0b0110#4 ++ 0b0#1 ++ 0b001#3 ++ 0b0011#4 ++ 0b01#2 ++ 0b0000#4) =
      .ok (.addReg .r4 .r5 .r6 (.lsl 3#4) .s) ∧
    decode (0b110111#6 ++ 0b0010#4 ++ 0b0000#4 ++ 0b0001#4 ++ 0b0#1 ++ 0b000#3 ++ 0b0000#4 ++ 0b00#2 ++ 0b0000#4) =
      .ok (.loadReg .r2 .r1 .noShift .a) ∧
    decode (0b111010#6 ++ 0b0000#4 ++ 0b0010#4 ++ 0b0011#4 ++ 0b0#1 ++ 0b000#3 ++ 0b0000#4 ++ 0b00#2 ++ 0b0000#4) =
      .ok (.cmpReg .r2 .r3 .noShift .a) := by decide

theorem test_encode_word :
    encode (.addReg .r4 .r5 .r5 (.lsl 1#4) .a) = 0xC1154440#32 ∧ encode (.cmpImm .r1 0x0005#16 .n) = 0x28400160#32 ∧
    encode (.sbcShort .r1 0x00#8 (.lsl 8#4) .s) = 0x8C400610#32 := by decide

/-! ### Words that are refused (section 6.2) -/

theorem test_refuse_opcode :
    [0x20400000#32, 0x24400000#32, 0x2C400000#32, 0x34400000#32, 0x3C400000#32, 0x40000000#32, 0x7C000000#32,
        0xA0400000#32, 0xE4000000#32, 0xFC048000#32, 0xFFFFFFFF#32].all
      (decode · = .error .opcodeNotInSource) = true := by decide

theorem test_refuse_condition :
    [0x00401901#32, 0xC0C4A001#32, 0x0040190F#32].all (decode · = .error .conditionNotInSource) = true := by decide

theorem test_refuse_status_source :
    [0x00401930#32, 0xC0C48030#32].all (decode · = .error .statusSourceReserved) = true := by decide

theorem test_refuse_register :
    [0x00001900#32, 0x02001900#32, 0x03C01900#32, 0x00000000#32, 0xC0048000#32, 0xC0C08000#32, 0xC0C40000#32,
        0xC2C48000#32, 0xE8040000#32, 0xE8008000#32, 0xDC800000#32, 0x28000140#32].all
      (decode · = .error .registerNotInScope) = true := by decide

theorem test_refuse_shift_amount_in_register :
    [0xC0C4A000#32, 0xC1116400#32, 0x80406000#32].all (decode · = .error .registerShiftAmountNotInSource) = true := by
  decide

theorem test_refuse_shift_type :
    [0xC0C48800#32, 0xC0C49C00#32, 0x80400800#32].all (decode · = .error .shiftTypeNotInSource) = true := by decide

theorem test_refuse_shift_count :
    [0xC0C48040#32, 0x804003C0#32, 0xDC804040#32].all (decode · = .error .shiftCountWithoutShift) = true := by decide

theorem test_refuse_unused_field :
    [0xE8448000#32, 0xF1C48000#32, 0xF8448000#32, 0xDC844000#32, 0xDC804400#32, 0xDC804440#32].all
      (decode · = .error .unusedFieldNonZero) = true := by decide

theorem test_refuse_terms :
    [0x00401910#32, 0x28400150#32, 0x1C400150#32].all (decode · = .error .immFormatHasNoShifter) = true ∧
    [0x9C448610#32, 0xDC804010#32].all (decode · = .error .loadShiftFlagsNotInSource) = true := by decide

/-! ### One step -/

/-- r1, r2, r3 as given; r5 = 0x8001 and the others distinct values. -/
def regs (a b c : Word) : Regs :=
  { r1 := a, r2 := b, r3 := c, r4 := 0x4444#16, r5 := 0x8001#16, r6 := 0x6666#16, r7 := 0x7777#16 }

/-- A launch state for one word; the flags are in the order N, Z, C, V. -/
def launched (a b c : Word) (f : Bool × Bool × Bool × Bool) (w : InstrWord) : State :=
  .launch [.word w] (regs a b c) { n := f.1, z := f.2.1, c := f.2.2.1, v := f.2.2.2 }

/-- A register and the flags after one step. -/
def after (a b c : Word) (f : Bool × Bool × Bool × Bool) (w : InstrWord) (r : Reg) :
    Option (Word × Bool × Bool × Bool × Bool) :=
  match step (launched a b c f w) with
  | .next t => some (t.getReg r, t.sr.n, t.sr.z, t.sr.c, t.sr.v)
  | .fault _ | .refused _ => none

/-- A register, N and Z after one step: C and V are open under `[S]`. -/
def afterNZ (a b c : Word) (f : Bool × Bool × Bool × Bool) (w : InstrWord) (r : Reg) : Option (Word × Bool × Bool) :=
  (after a b c f w r).map fun x => (x.1, x.2.1, x.2.2.1)

-- `95_test_vectors.md` section 2.5
theorem test_add_imm_overflows :
    after 0x7FFF 0 0 (false, false, false, true) 0x00400040 .r1 = some (0x8000, true, false, false, true) := by decide
theorem test_add_imm_minus_one :
    after 0x0005 0 0 (false, false, false, true) 0x007FFFC0 .r1 = some (0x0004, false, false, true, false) := by decide
-- `95_test_vectors.md` section 2.6
theorem test_add_short_builds_constant :
    after 0x000A 0 0 (false, false, false, true) 0x80404700 .r1 = some (0xA001, true, false, false, false) := by decide
theorem test_add_short_zero_extends :
    after 0xFFFF 0 0 (false, false, false, true) 0x807FC400 .r1 = some (0x00FE, false, false, true, false) := by decide
-- `95_test_vectors.md` section 2.1
theorem test_add_reg_z_c_v :
    after 0x8000 0x8000 0 (false, false, true, true) 0xC0C48000 .r3 = some (0x0000, false, true, true, true) := by decide
-- `95_test_vectors.md` section 4, r5 = 0x8001
theorem test_add_reg_shifts_first :
    after 0 0 0 (false, false, false, true) 0xC1154440 .r4 = some (0x8003, true, false, false, false) := by decide
-- `95_test_vectors.md` section 2.5
theorem test_adc_imm_carry_out :
    after 0xFFFF 0 0 (false, false, true, true) 0x047FFFC0 .r1 = some (0xFFFF, true, false, true, false) := by decide
theorem test_adc_imm_no_carry :
    after 0x00FF 0 0 (false, false, false, true) 0x04400000 .r1 = some (0x00FF, false, false, false, false) := by decide
-- `95_test_vectors.md` section 2.6
theorem test_adc_short_with_carry :
    after 0x0FFF 0 0 (false, false, true, true) 0x84404500 .r1 = some (0xFFF2, true, false, false, false) := by decide
theorem test_adc_short_without_carry :
    after 0x0FFF 0 0 (false, false, false, true) 0x84404500 .r1 = some (0xFFF1, true, false, false, false) := by decide
-- `95_test_vectors.md` section 2.2
theorem test_adc_reg_carry_overflows :
    after 0x7FFF 0x0000 0 (false, false, true, true) 0xC4C48000 .r3 = some (0x8000, true, false, false, true) := by decide
-- `95_test_vectors.md` section 4
theorem test_adc_reg_shift :
    after 0 0x0001 0x0100 (false, false, true, true) 0xC448C600 .r1 = some (0x0201, false, false, false, false) := by decide
-- `95_test_vectors.md` section 2.5
theorem test_sub_imm_borrows :
    after 0x0000 0 0 (false, false, true, true) 0x08400040 .r1 = some (0xFFFF, true, false, false, false) := by decide
theorem test_sub_imm_overflows :
    after 0x8000 0 0 (false, false, false, true) 0x08400040 .r1 = some (0x7FFF, false, false, true, true) := by decide
-- `95_test_vectors.md` section 2.6
theorem test_sub_short_minuend_shifted :
    after 0x0001 0 0 (false, false, false, true) 0x8840C480 .r1 = some (0x0001, false, false, true, false) := by decide
theorem test_sub_short_zero_extends :
    after 0x0010 0 0 (false, false, false, true) 0x887FC500 .r1 = some (0x0001, false, false, true, false) := by decide
-- `95_test_vectors.md` section 2.3
theorem test_sub_reg_order :
    after 0x000A 0x0014 0 (false, false, true, true) 0xC8C48000 .r3 = some (0xFFF6, true, false, false, false) := by decide
theorem test_sub_reg_overflow_and_borrow :
    after 0x7FFF 0xFFFF 0 (false, false, true, true) 0xC8C48000 .r3 = some (0x8000, true, false, false, true) := by decide
-- `95_test_vectors.md` section 2.5
theorem test_sbc_imm_minus_65536 :
    after 0x0000 0 0 (false, false, false, true) 0x0C7FFFC0 .r1 = some (0x0000, false, true, false, false) := by decide
theorem test_sbc_imm_no_borrow_in :
    after 0x0005 0 0 (false, false, true, true) 0x0C400000 .r1 = some (0x0005, false, false, true, false) := by decide
-- `95_test_vectors.md` section 2.6
theorem test_sbc_short_borrow_in :
    after 0x0100 0 0 (false, false, false, true) 0x8C400600 .r1 = some (0xFFFF, true, false, false, false) := by decide
theorem test_sbc_short_no_borrow_in :
    after 0x0001 0 0 (false, false, true, true) 0x8C404440 .r1 = some (0x0001, false, false, true, false) := by decide
-- `95_test_vectors.md` section 2.4
theorem test_sbc_reg_z_c_v :
    after 0x8000 0x7FFF 0 (false, false, false, true) 0xCCC48000 .r3 = some (0x0000, false, true, true, true) := by decide
theorem test_sbc_reg_no_overflow :
    after 0x7FFF 0xFFFF 0 (false, false, false, true) 0xCCC48000 .r3 = some (0x7FFF, false, false, false, false) := by decide
-- `95_test_vectors.md` section 3.2
theorem test_and_imm_mask :
    after 0x1234 0 0 (false, false, true, true) 0x10403FC0 .r1 = some (0x0034, false, false, false, false) := by decide
theorem test_and_imm_clears :
    after 0xBEEF 0 0 (false, false, true, true) 0x10400000 .r1 = some (0x0000, false, true, false, false) := by decide
theorem test_and_short_low_byte :
    after 0x1234 0 0 (false, false, true, true) 0x907FC600 .r1 = some (0x0000, false, true, false, false) := by decide
theorem test_and_short_shift :
    after 0x000F 0 0 (false, false, true, true) 0x907C0500 .r1 = some (0x00F0, false, false, false, false) := by decide
-- `95_test_vectors.md` section 3.1
theorem test_and_reg_negative :
    after 0xFFFF 0xFFFF 0 (false, false, true, true) 0xD0C48000 .r3 = some (0xFFFF, true, false, false, false) := by decide
-- `95_test_vectors.md` section 4
theorem test_and_reg_shift :
    after 0xFFFF 0x00F0 0x0F0F (false, false, true, true) 0xD048C500 .r1 = some (0x0F00, false, false, false, false) := by decide
-- `95_test_vectors.md` section 3.2
theorem test_orr_imm_upper :
    after 0x0123 0 0 (false, false, true, true) 0x147C0000 .r1 = some (0xF123, true, false, false, false) := by decide
theorem test_orr_imm_zero :
    after 0x0000 0 0 (false, false, true, true) 0x14400000 .r1 = some (0x0000, false, true, false, false) := by decide
theorem test_orr_short_builds :
    after 0x0012 0 0 (false, false, true, true) 0x944D0600 .r1 = some (0x1234, false, false, false, false) := by decide
theorem test_orr_short_loses_bit :
    after 0x8000 0 0 (false, false, true, true) 0x94404440 .r1 = some (0x0001, false, false, false, false) := by decide
-- `95_test_vectors.md` section 3.1
theorem test_orr_reg :
    after 0xFF00 0x0FF0 0 (false, false, true, true) 0xD4C48000 .r3 = some (0xFFF0, true, false, false, false) := by decide
-- `95_test_vectors.md` section 4
theorem test_orr_reg_shift :
    after 0 0x00AB 0x00CD (false, false, true, true) 0xD448C600 .r1 = some (0xABCD, true, false, false, false) := by decide
-- `95_test_vectors.md` section 3.2
theorem test_xor_imm_not :
    after 0x1234 0 0 (false, false, true, true) 0x187FFFC0 .r1 = some (0xEDCB, true, false, false, false) := by decide
theorem test_xor_imm_equal :
    after 0x1234 0 0 (false, false, true, true) 0x18448D00 .r1 = some (0x0000, false, true, false, false) := by decide
theorem test_xor_short :
    after 0x0012 0 0 (false, false, true, true) 0x987FC600 .r1 = some (0x12FF, false, false, false, false) := by decide
theorem test_xor_short_equal :
    after 0x00AA 0 0 (false, false, true, true) 0x986A8400 .r1 = some (0x0000, false, true, false, false) := by decide
-- `95_test_vectors.md` section 3.1
theorem test_xor_reg_equal :
    after 0x1234 0x1234 0 (false, false, true, true) 0xD8C48000 .r3 = some (0x0000, false, true, false, false) := by decide
-- `95_test_vectors.md` section 4
theorem test_xor_reg_shift :
    after 0x7777 0x0001 0x8000 (false, false, true, true) 0xD848C7C0 .r1 = some (0x0000, false, true, false, false) := by decide
-- `95_test_vectors.md` section 3.3
theorem test_load_imm :
    after 0xFFFF 0 0 (true, false, false, true) 0x1C400000 .r1 = some (0x0000, true, false, false, true) := by decide
theorem test_load_imm_n :
    after 0x9999 0 0 (true, true, true, true) 0x1C400160 .r1 = some (0x0005, true, true, true, true) := by decide
theorem test_load_short_shifts_constant :
    after 0xFFFF 0 0 (true, false, true, true) 0x9C448600 .r1 = some (0x1200, true, false, true, true) := by decide
theorem test_load_short_loses_bits :
    after 0x0000 0 0 (true, false, true, true) 0x9C7FC700 .r1 = some (0xF000, true, false, true, true) := by decide
theorem test_load_reg_copies :
    after 0xBEEF 0x1111 0 (false, true, true, false) 0xDC804000 .r2 = some (0xBEEF, false, true, true, false) := by decide
theorem test_load_reg_source_kept :
    after 0xBEEF 0x1111 0 (false, true, true, false) 0xDC804000 .r1 = some (0xBEEF, false, true, true, false) := by decide
-- `95_test_vectors.md` section 3.4
theorem test_cmp_imm_less :
    after 0x0005 0 0 (false, false, true, true) 0x28400400 .r1 = some (0x0005, true, false, false, false) := by decide
theorem test_cmp_imm_overflow :
    after 0x8000 0 0 (false, false, true, true) 0x28400040 .r1 = some (0x8000, false, false, true, true) := by decide
theorem test_cmp_short_greater :
    after 0x0003 0 0 (false, false, true, true) 0xA8414440 .r1 = some (0x0003, false, false, true, false) := by decide
theorem test_cmp_short_loses_bit :
    after 0x8001 0 0 (false, false, true, true) 0xA8408440 .r1 = some (0x8001, false, true, true, false) := by decide
theorem test_cmp_reg_signed :
    after 0x0001 0x8000 0 (false, false, true, true) 0xE8048000 .r1 = some (0x0001, true, false, false, true) := by decide
theorem test_cmp_reg_shift :
    after 0x0005 0x000A 0 (false, false, true, true) 0xE8048440 .r1 = some (0x0005, false, true, true, false) := by decide
theorem test_tsa_imm :
    after 0xFFDF 0 0 (false, false, true, true) 0x30400800 .r1 = some (0xFFDF, false, true, false, false) := by decide
theorem test_tsa_imm_negative :
    after 0x8000 0 0 (false, false, true, true) 0x307FC000 .r1 = some (0x8000, true, false, false, false) := by decide
theorem test_tsa_short :
    after 0x0008 0 0 (false, false, true, true) 0xB0600500 .r1 = some (0x0008, false, false, false, false) := by decide
theorem test_tsa_short_zero :
    after 0x1234 0 0 (false, false, true, true) 0xB07FC600 .r1 = some (0x1234, false, true, false, false) := by decide
theorem test_tsa_reg :
    after 0xF0F0 0x0F0F 0 (false, false, true, true) 0xF0048000 .r1 = some (0xF0F0, false, true, false, false) := by decide
theorem test_tsa_reg_shift :
    after 0xF0F0 0x0F0F 0 (false, false, true, true) 0xF0048500 .r1 = some (0xF0F0, false, false, false, false) := by decide
theorem test_tsx_imm :
    after 0x1234 0 0 (false, false, true, true) 0x38448D00 .r1 = some (0x1234, false, true, false, false) := by decide
theorem test_tsx_imm_negative :
    after 0x9234 0 0 (false, false, true, true) 0x38448D00 .r1 = some (0x9234, true, false, false, false) := by decide
theorem test_tsx_short :
    after 0x0012 0 0 (false, false, true, true) 0xB84D0600 .r1 = some (0x0012, false, false, false, false) := by decide
theorem test_tsx_short_equal :
    after 0x8055 0 0 (false, false, true, true) 0xB86A8440 .r1 = some (0x8055, false, true, false, false) := by decide
theorem test_tsx_reg :
    after 0x8001 0x0001 0 (false, false, true, true) 0xF8048000 .r1 = some (0x8001, true, false, false, false) := by decide
theorem test_tsx_reg_shift :
    after 0x0012 0x1200 0 (false, false, true, true) 0xF8048600 .r1 = some (0x0012, false, true, false, false) := by decide

/-! Status overrides (section 5). -/

theorem test_override_s_add :
    afterNZ 0x2000 0 0 (false, false, false, false) 0x804044D0 .r1 = some (0x0001, false, true) := by decide
theorem test_override_s_sbc :
    afterNZ 0x0100 0 0 (false, false, false, false) 0x8C400610 .r1 = some (0xFFFF, false, true) := by decide
theorem test_override_s_cmp :
    afterNZ 0x4000 0x0000 0 (false, true, false, false) 0xE8048450 .r1 = some (0x4000, true, false) := by decide
theorem test_override_n_adc :
    after 0xFFFF 0x0000 0 (false, false, true, false) 0xC4448020 .r1 = some (0x0000, false, false, true, false) := by
  decide
theorem test_override_n_cmp :
    after 0x0003 0 0 (false, true, true, false) 0x28400160 .r1 = some (0x0003, false, true, true, false) := by decide

/-! ### The run and the interface -/

/-- P8: the second word is refused. -/
def p8 : State := .launch [.word 0x01000040, .word 0xC1116400] (regs 0 0 0) ⟨false, false, false, false⟩

theorem test_p8_is_refused : runSteps 2 p8 = .refused (.refuse .registerShiftAmountNotInSource) := rfl

theorem test_run_ends : step .reset = .fault .runEnded ∧ step { State.reset with pc := 1 } = .fault .pcPastProgram := ⟨rfl, rfl⟩

theorem test_fetch_word_runs_first :
    step (State.reset.withFetchWord 32 0x1C413480) =
      .next { (State.reset.setReg .r1 0x04D2).withFetchWord 32 0x1C413480 with pc := 1 } := rfl

theorem test_term_with_shifted_load_is_refused :
    step (.launch [.term (.loadReg .r2 .r1 (.lsl 1) .a)] (regs 0 0 0) ⟨false, false, false, false⟩) =
      .refused (.refuse .loadRegShiftNotInSource) := rfl

/-! ### The assembler (R44 to R48; the lines and words of section 1) -/

/-- The word of a line, if the line holds one instruction. -/
def wordOf (line : String) : Option InstrWord :=
  match assembleLine line.toList with
  | .ok (some i) => some (encode i)
  | .ok none | .error _ => none

theorem test_assemble_formats :
    wordOf "ADDI r1, #100              ; r1 = r1 + 100" = some 0x00401900 ∧
    wordOf "ADDI r1, #1, LSL #12       ; r1 = (r1 << 12) + 1" = some 0x80404700 ∧
    wordOf "ADDR r4, r5, r5, LSL #1" = some 0xC1154440 ∧
    wordOf "LOAD r2, r1" = some 0xDC804000 ∧ wordOf "CMPR r2, r3" = some 0xE808C000 := by decide

theorem test_assemble_override :
    wordOf "ADDI[S] r1, #0, LSL #3" = some 0x804004D0 ∧ wordOf "ADDI[N] r4, #1" = some 0x01000060 ∧
    wordOf "ADDI[A] r1, #1" = some 0x00400040 := by decide

theorem test_assemble_constants :
    wordOf "ANDI r2, #~(1<<5)" = some 0x10BFF7C0 ∧ wordOf "ANDI r1, #0x00FF" = some 0x10403FC0 ∧
    wordOf "ADDI r1, #-1" = some 0x007FFFC0 := by decide

/-- Either case of a hexadecimal digit is read (log entry 21); a digit outside the base is none. -/
theorem test_assemble_digits :
    wordOf "ADDI r1, #0xffDF" = wordOf "ADDI r1, #0xFFDF" ∧ digitValue 16 'g' = none ∧ digitValue 10 'A' = none := by
  decide

/-- Out of R47's ranges, and the spellings of `90_conflicts.md` C1, C2, C3, which are not admitted. -/
theorem test_assemble_rejects :
    assembleLine "ADDI r1, #65536".toList = .error .constantOutOfRange ∧
    assembleLine "ADDI r1, #256, LSL #1".toList = .error .constantOutOfRange ∧
    assembleLine "CMPI r2, r3".toList = .error .noSuchForm ∧ assembleLine "ORRR r1, r4".toList = .error .noSuchForm ∧
    assembleLine "ADDR r4, r4, r5, LSL".toList = .error .badOperand ∧
    assembleLine "BRAN loop".toList = .error .unknownMnemonic := by decide

/-! ### Witnesses: each statement's hypotheses are met together, clause by clause, at the ends of their ranges -/

theorem test_witness_DecodeOfEncode :
    (Instr.loadImm .r7 0xFFFF#16 .n).WellFormed ∧ (Instr.xorShort .r1 0#8 (.lsl 15#4) .s).WellFormed := by decide

theorem test_witness_EncodeOfDecode : decode 0xF8048600#32 = .ok (.tsxReg .r1 .r2 (.lsl 8#4) .a) := by decide

theorem test_witness_OpcodeNotInSourceExactly :
    decode 0x20000000#32 = .error .opcodeNotInSource ∧ decode 0xFFFFFFFF#32 = .error .opcodeNotInSource ∧
    decode 0xFB048600#32 ≠ .error .opcodeNotInSource ∧ decode 0x00000000#32 ≠ .error .opcodeNotInSource := by decide

theorem test_witness_DecodeChecksInOrder_cond :
    (decode 0x00401901#32 ≠ .error .opcodeNotInSource ∧ fieldCond 0x00401901#32 ≠ 0) ∧
    (decode 0x0040193F#32 ≠ .error .opcodeNotInSource ∧ fieldCond 0x0040193F#32 ≠ 0) := by decide

theorem test_witness_DecodeChecksInOrder_sf :
    decode 0xC0C4A030#32 ≠ .error .opcodeNotInSource ∧ fieldCond 0xC0C4A030#32 = 0 ∧ fieldSf 0xC0C4A030#32 = 3 := by
  decide

/-- `shsel = 1`; `shtype` 2 and 7; `shtype = 0` with counts 1 and 15. -/
theorem test_witness_DecodeChecksInOrder_shift :
    [0xC0C4A000#32, 0xC0C48800#32, 0xC0C49C00#32, 0xC0C48040#32, 0x804003C0#32].all (fun w =>
      decode w ≠ .error .opcodeNotInSource ∧ fieldCond w = 0 ∧ fieldSf w ≠ 3 ∧ w.getLsbD 31 = true) = true ∧
    fieldShsel 0xC0C4A000#32 = 1 ∧
    [0xC0C48800#32, 0xC0C49C00#32].all (fun w => fieldShsel w = 0 ∧ 2 ≤ (fieldShtype w).toNat) = true ∧
    [0xC0C48040#32, 0x804003C0#32].all (fun w => fieldShsel w = 0 ∧ fieldShtype w = 0 ∧ fieldShcnt w ≠ 0) = true := by
  decide

/-- `rD` = 0, 8, 15 in words that pass the checks before. -/
theorem test_witness_RegisterFieldsInScope_rD :
    [0x00001900#32, 0x82004000#32, 0xC3C48000#32].all (fun w => FieldsBeforeRegistersPass w ∧
      NamesNoRegister (fieldRD w) ∧ fieldOpcode w ∉ [0x3A#6, 0x3C#6, 0x3E#6]) = true := by decide

/-- `rS1` = 0, 8. -/
theorem test_witness_RegisterFieldsInScope_rS1 :
    [0xC0C08000#32, 0xE8208000#32].all (fun w => FieldsBeforeRegistersPass w ∧ NamesNoRegister (fieldRS1 w) ∧
      fieldOpcode w ≠ 0x37#6 ∧ (fieldOpcode w).extractLsb' 4 2 = 3#2) = true := by decide

/-- `rS2` = 0, 15. -/
theorem test_witness_RegisterFieldsInScope_rS2 :
    [0xDC800000#32, 0xC0C7C000#32].all (fun w => FieldsBeforeRegistersPass w ∧ NamesNoRegister (fieldRS2 w) ∧
      (fieldOpcode w).extractLsb' 4 2 = 3#2) = true := by decide

/-- CMPR with `rD` 1, TSXR with `rD` 15. -/
theorem test_witness_UnusedFieldsRefused_tests :
    [0xE8448000#32, 0xFBC48000#32].all (fun w => FieldsBeforeRegistersPass w ∧ ¬ NamesNoRegister (fieldRS2 w) ∧
      fieldOpcode w ∈ [0x3A#6, 0x3C#6, 0x3E#6] ∧ ¬ NamesNoRegister (fieldRS1 w) ∧ fieldRD w ≠ 0) = true := by decide

/-- LOAD with `rS1` 1, and with `LSL #0`. -/
theorem test_witness_UnusedFieldsRefused_load :
    [0xDC844000#32, 0xDC804400#32].all (fun w => FieldsBeforeRegistersPass w ∧ ¬ NamesNoRegister (fieldRS2 w) ∧
      fieldOpcode w = 0x37#6 ∧ ¬ NamesNoRegister (fieldRD w) ∧
      (fieldRS1 w ≠ 0 ∨ fieldShsel w ≠ 0 ∨ fieldShtype w ≠ 0 ∨ fieldShcnt w ≠ 0)) = true := by decide

/-- ADDI, CMPI and LOAD in the Immediate format; LOAD in the other two, with `rD` and `rS2` at 1 and 7. -/
theorem test_witness_ShiftFlagsRefusedOnWords :
    [0x00401910#32, 0x28400150#32, 0x1C400150#32, 0x9C448610#32, 0x9DC00010#32, 0xDC404010#32, 0xDDC1C010#32].all
      (fun w => FieldsBeforeRegistersPass w ∧ fieldSf w = 1 ∧ ¬ NamesNoRegister (fieldRD w)) = true ∧
    [0x00401910#32, 0x28400150#32, 0x1C400150#32].all (fun w => w.getLsbD 31 = false) = true ∧
    [0x9C448610#32, 0x9DC00010#32].all (fun w => fieldOpcode w = 0x27#6) = true ∧
    [0xDC404010#32, 0xDDC1C010#32].all (fun w => fieldOpcode w = 0x37#6 ∧ ¬ NamesNoRegister (fieldRS2 w) ∧
      fieldRS1 w = 0 ∧ fieldShtype w = 0) = true := by decide

theorem test_witness_OpcodeTableSelects :
    decode 0xDC804000#32 = .ok (.loadReg .r2 .r1 .noShift .a) ∧ opcodeTable.length = 33 := by decide

theorem test_witness_AssembleOfStatement :
    statementOf (.addShort .r1 0xFF#8 (.lsl 15#4) .n) =
      some ⟨.immForms .add, .n, [.reg .r1, .imm 255, .lsl 15]⟩ ∧
    statementOf (.addShort .r1 0#8 .noShift .a) = none ∧ statementOf (.loadReg .r2 .r1 (.lsl 0#4) .a) = none := by decide

theorem test_witness_AssemblerNeverEmits :
    assemble ⟨.load, .a, [.reg .r2, .reg .r1]⟩ = .ok (.loadReg .r2 .r1 .noShift .a) := by decide

/-- A state with C = 1 and the program of one word. -/
def s0 : State := launched 0x8000 0x7FFF 0x0001 (false, true, true, false) 0xC0C48000

theorem test_witness_instruction_rules :
    SF.a ≠ .s ∧ SF.n ≠ .s ∧ (∃ t, exec (.addImm .r1 0xFFFF#16 .a) s0 = .next t) ∧
    (∃ t, exec (.tsxReg .r1 .r2 (.lsl 15#4) .s) s0 = .next t) :=
  ⟨by decide, by decide, ⟨_, rfl⟩, ⟨_, rfl⟩⟩

theorem test_witness_ShiftedBits : 15 < 16 ∧ lsl16 0x8003#16 15#4 = 0x8000#16 ∧ lsl16 0x8003#16 0#4 = 0x8003#16 := by
  decide

theorem test_witness_CompareFlagRelations :
    (Instr.cmpImm .r1 0xFFFF#16 .a = .cmpImm .r1 0xFFFF#16 .a ∧ (0x8000#16 = s0.getReg .r1 ∧ 0xFFFF#16 = 0xFFFF#16)) ∧
    (0x8000#16 = s0.getReg .r1 ∧ 0x00FF#16 = (0xFF#8).setWidth 16) ∧
    (0x8000#16 = s0.getReg .r1 ∧ 0x7FFF#16 = s0.getReg .r2) := by decide

/-- Shift amounts 8 and 15. -/
theorem test_witness_ShortAndIsLowByte :
    (Shift.lsl 8#4 = .lsl 8#4 ∧ 8 ≤ (8#4).toNat) ∧ (Shift.lsl 15#4 = .lsl 15#4 ∧ 8 ≤ (15#4).toNat) := by decide

theorem test_witness_OverrideNKeepsFlags :
    (Instr.cmpImm .r1 5#16 .n).sf = .n ∧ (Instr.cmpImm .r1 5#16 .n).op.isTest = true ∧
    (∃ t, exec (.cmpImm .r1 5#16 .n) s0 = .next t) ∧ (Instr.loadReg .r2 .r1 .noShift .n).sf = .n ∧
    ∃ t, exec (.loadReg .r2 .r1 .noShift .n) s0 = .next t :=
  ⟨by decide, by decide, ⟨_, rfl⟩, by decide, ⟨_, rfl⟩⟩

theorem test_witness_OverrideSTakesShiftFlags :
    ((Instr.addImm .r1 5#16 .s).sf = .s ∧ (Instr.addImm .r1 5#16 .s).format = .imm) ∧
    ((Instr.loadShort .r1 5#8 .noShift .s).sf = .s ∧ (Instr.loadShort .r1 5#8 .noShift .s).format ≠ .imm ∧
      (Instr.loadShort .r1 5#8 .noShift .s).op = .load) ∧
    ((Instr.sbcShort .r1 0#8 (.lsl 8#4) .s).sf = .s ∧ Op.sbc ≠ .load ∧
      (Instr.sbcShort .r1 0#8 (.lsl 8#4) .s).shape = .short .sbc .r1 0#8 (.lsl 8#4) .s) ∧
    ((Instr.cmpReg .r1 .r2 .noShift .s).sf = .s ∧ Op.cmp ≠ .load ∧
      (Instr.cmpReg .r1 .r2 .noShift .s).shape = .reg .cmp none (some .r1) .r2 .noShift .s) := by decide

theorem test_witness_LoadKeepsFlags :
    (Instr.loadImm .r1 0#16 .a).op = .load ∧ (∃ t, exec (.loadImm .r1 0#16 .a) s0 = .next t) ∧
    (Instr.loadReg .r2 .r1 .noShift .s).op = .load ∧ (Instr.loadReg .r2 .r1 .noShift .s).sf = .s :=
  ⟨by decide, ⟨_, rfl⟩, by decide, by decide⟩

theorem test_witness_AdmittedCompletes :
    (Instr.addReg .r1 .r1 .r1 (.lsl 15#4) .s).refusal = none ∧
    (Instr.addImm .r1 0#16 .s).refusal = some .immFormatHasNoShifter ∧
    (Instr.loadShort .r1 0#8 .noShift .s).refusal = some .loadShiftFlagsNotInSource ∧
    (Instr.loadReg .r1 .r1 (.lsl 0#4) .n).refusal = some .loadRegShiftNotInSource := by decide

theorem test_witness_RefusedCombinations :
    exec (.loadImm .r1 5#16 .s) s0 = .refused (.refuse .immFormatHasNoShifter) ∧
    exec (.loadReg .r2 .r1 (.lsl 1#4) .s) s0 = .refused (.refuse .loadShiftFlagsNotInSource) ∧
    exec (.loadReg .r2 .r1 (.lsl 0#4) .n) s0 = .refused (.refuse .loadRegShiftNotInSource) := ⟨rfl, rfl, rfl⟩

theorem test_witness_EveryInstructionFrame :
    (∃ t, exec (.subReg .r3 .r1 .r2 .noShift .a) s0 = .next t) ∧ (Instr.subReg .r3 .r1 .r2 .noShift .a).dest = some .r3 ∧
    (Instr.cmpReg .r1 .r2 .noShift .a).dest = none :=
  ⟨⟨_, rfl⟩, by decide, by decide⟩

/-- An ADC with the same C and other flags; an instruction that reads no flag, with every flag changed. -/
theorem test_witness_FlagsReadOnlyThroughCarry :
    ((Instr.adcReg .r3 .r1 .r2 .noShift .a).op = .adc ∧ (StatusRegister.mk true false true true).c = s0.sr.c ∧
      ∃ t, exec (.adcReg .r3 .r1 .r2 .noShift .a) s0 = .next t) ∧
    (¬ ((Instr.orrReg .r3 .r1 .r2 .noShift .s).op = .adc ∨ (Instr.orrReg .r3 .r1 .r2 .noShift .s).op = .sbc) ∧
      (Instr.orrReg .r3 .r1 .r2 .noShift .s).sf = .s ∧ (StatusRegister.mk true false true false).c = s0.sr.c ∧
      (StatusRegister.mk true false true false).v = s0.sr.v ∧
      ∃ t, exec (.orrReg .r3 .r1 .r2 .noShift .s) s0 = .next t) :=
  ⟨⟨by decide, by decide, ⟨_, rfl⟩⟩, ⟨by decide, by decide, by decide, by decide, ⟨_, rfl⟩⟩⟩

/-- Register r3, which is no source, differs. -/
theorem test_witness_DependsOnlyOnSources :
    (∀ r ∈ (Instr.addReg .r3 .r1 .r2 .noShift .a).sources,
      State.getReg { s0 with regs := regs 0x8000 0x7FFF 0xFFFF } r = s0.getReg r) ∧
    (∃ t, exec (.addReg .r3 .r1 .r2 .noShift .a) s0 = .next t) ∧
    (Instr.addReg .r3 .r1 .r2 .noShift .a).dest = some .r3 :=
  ⟨by decide, ⟨_, rfl⟩, by decide⟩

theorem test_witness_StepRunsDecoded :
    (s0.program[s0.pc]? = some (.word 0xC0C48000) ∧ decode 0xC0C48000 = .ok (.addReg .r3 .r1 .r2 .noShift .a)) ∧
    (({ s0 with program := [.term (.addImm .r1 1#16 .a)] } : State).program[s0.pc]? = some (.term (.addImm .r1 1#16 .a))) ∧
    (({ p8 with pc := 1 } : State).program[1]? = some (.word 0xC1116400) ∧
      decode 0xC1116400 = .error .registerShiftAmountNotInSource) := by decide

/-- `pc` at the end, and one past it. -/
theorem test_witness_RunEndsAtProgramEnd :
    State.Final { p8 with pc := 2 } ∧ p8.program.length ≤ 3 ∧ ¬ State.Final { p8 with pc := 3 } := by decide

/-- `pc` at the last entry. -/
theorem test_witness_StepKeepsProgramPosition : s0.Inv ∧ ∃ t, step s0 = .next t := ⟨by decide, ⟨_, rfl⟩⟩

/-- A state in which the run completes, one in which it is refused, and one at the end. -/
theorem test_witness_runs :
    s0.Inv ∧ s0.Completes ∧ p8.Inv ∧ ¬ p8.Completes ∧ State.Inv { p8 with pc := 2 } := by
  refine ⟨by decide, ⟨_, rfl, rfl, rfl⟩, by decide, ?_, by decide⟩
  rintro ⟨t, h, -⟩
  exact absurd (test_p8_is_refused.symm.trans h) (by simp)

/-- The first step of P8 answers a next state, and the second is refused; no step and one step come before it, two come
after. -/
theorem test_witness_RefusedRunNeverFinal :
    ∃ u, runSteps 1 p8 = .next u ∧ step u = .refused (.refuse .registerShiftAmountNotInSource) ∧
      (∃ v, runSteps 0 p8 = .next v) ∧ 1 < 2 :=
  ⟨_, rfl, rfl, ⟨_, rfl⟩, by decide⟩

/-- The largest word, a word that decodes, and a program with an entry beside the one placed. -/
theorem test_witness_PlacedWordIsFetched :
    0xFFFFFFFF < 2 ^ 32 ∧ 0x1C413480 < 2 ^ 32 ∧ decode (BitVec.ofNat 32 0x1C413480) = .ok (.loadImm .r1 0x04D2#16 .a) ∧
    1 < p8.program.length ∧ 1 ≠ p8.pc := by decide

end Sys2Proof.Tests
end

section
/-! The layer under the statements about the state and the step: what each instruction's meaning is, in one of three
forms, and what a step with nothing to fetch answers. -/

namespace Sys2Proof.Machine

/-! ### The three forms of a meaning -/

/-- Where an operand comes from (`40_common_alu.md` R50): a constant of the instruction or a register. -/
inductive Source
  | const (k : Word)
  | reg (r : Reg)

/-- The value of an operand, read from the state before the step (R8). -/
def Source.value (b : Source) (s : State) : Word :=
  match b with
  | .const k => k
  | .reg r => s.getReg r

/-- The registers an operand is read from. -/
def Source.regs (b : Source) : List Reg :=
  match b with
  | .const _ => []
  | .reg r => [r]

@[simp] theorem Source.value_setSr (b : Source) (s : State) (sr : StatusRegister) :
    b.value (s.setSr sr) = b.value s := by
  cases b with
  | const k => rfl
  | reg r => exact s.getReg_setSr sr r

/-- The ALU operation of each operation but LOAD, which has none (R54 to R56, R60). -/
def aluOf (op : Op) : Option AluFn :=
  match op with
  | .add => some aluAdd
  | .adc => some aluAdc
  | .sub | .cmp => some aluSub
  | .sbc => some aluSbc
  | .and | .tsa => some aluAnd
  | .orr => some aluOrr
  | .xor | .tsx => some aluXor
  | .load => none

/-- `10_state.md` R16: only ADC and SBC read the old C. -/
theorem aluOf_ignores_carry {op : Op} {f : AluFn} (hf : aluOf op = some f) (hop : ¬ (op = .adc ∨ op = .sbc))
    (a b : Word) (c c' : Bool) : f a b c = f a b c' := by
  cases op with
  | adc => exact absurd (.inl rfl) hop
  | sbc => exact absurd (.inr rfl) hop
  | load => cases hf
  | add | sub | and | orr | xor | cmp | tsa | tsx => cases hf; rfl

/-- What `exec i` is in every state. Which of the three forms it has, and from which operands, does not depend on the
state: R30's refusal, LOAD's write (R60), or the common shape of R61. -/
inductive Meaning (i : Instr) : Prop
  | refused (r : RefuseReason) (hr : i.refusal = some r) (exec_eq : ∀ s, exec i s = refuse r)
  | load (rD : Reg) (v : Source) (admitted : i.refusal = none) (hop : i.op = .load) (hdest : i.dest = some rD)
      (hsources : i.sources = v.regs) (exec_eq : ∀ s, exec i s = .next (loadStep rD (v.value s) s))
  | alu (f : AluFn) (rS1 : Reg) (sh : Shift) (b : Source) (admitted : i.refusal = none) (hf : aluOf i.op = some f)
      (hsources : i.sources = rS1 :: b.regs)
      (exec_eq : ∀ s, exec i s = .next (aluStep f i.dest (s.getReg rS1) sh (b.value s) i.sf s))

/-- An operation with an ALU operation is not LOAD. -/
theorem ne_load_of_aluOf {op : Op} {f : AluFn} (hf : aluOf op = some f) : op ≠ .load := by
  rintro rfl
  cases hf

theorem meaning_of_aluImm {i : Instr} {op : Op} {r : Reg} {k : Word} {sf : SF} {f : AluFn}
    (hs : i.shape = .imm op r k sf) (hf : aluOf op = some f) (he : exec i = aluImm f i.dest r k sf) : Meaning i := by
  have hop := ne_load_of_aluOf hf
  by_cases hsf : sf = .s
  · exact .refused .immFormatHasNoShifter (by simp [Instr.refusal, hs, hsf]) fun s => by rw [he, hsf]; rfl
  · refine .alu f r .noShift (.const k) (by simp [Instr.refusal, hs, hsf]) (by simpa [Instr.op, hs])
      (by simp [Instr.sources, hs, hop, Source.regs]) fun s => ?_
    obtain ⟨h, -⟩ | ⟨-, h⟩ := aluImm_cases f i.dest r k sf s
    · exact absurd h hsf
    · simp [he, h, Instr.sf, hs, Source.value]

theorem meaning_of_aluShort {i : Instr} {op : Op} {r : Reg} {k : Byte} {sh : Shift} {sf : SF} {f : AluFn}
    (hs : i.shape = .short op r k sh sf) (hf : aluOf op = some f) (he : exec i = aluShort f i.dest r k sh sf) :
    Meaning i := by
  have hop := ne_load_of_aluOf hf
  refine .alu f r sh (.const (zext16 k)) (by simp [Instr.refusal, hs, hop]) (by simpa [Instr.op, hs])
    (by simp [Instr.sources, hs, hop, Source.regs]) fun s => ?_
  simp [he, aluShort_eq, Instr.sf, hs, Source.value]

theorem meaning_of_aluReg {i : Instr} {op : Op} {rD : Option Reg} {rS1 rS2 : Reg} {sh : Shift} {sf : SF} {f : AluFn}
    (hs : i.shape = .reg op rD (some rS1) rS2 sh sf) (hf : aluOf op = some f)
    (he : exec i = aluReg f i.dest rS1 rS2 sh sf) : Meaning i := by
  have hop := ne_load_of_aluOf hf
  refine .alu f rS1 sh (.reg rS2) (by simp [Instr.refusal, hs, hop]) (by simpa [Instr.op, hs])
    (by simp [Instr.sources, hs, Source.regs]) fun s => ?_
  simp [he, aluReg_eq, Instr.sf, hs, Source.value]

theorem meaning_loadImm (rD : Reg) (k : Word) (sf : SF) : Meaning (.loadImm rD k sf) := by
  cases sf with
  | s => exact .refused _ rfl fun _ => rfl
  | a | n => exact .load rD (.const k) rfl rfl rfl rfl fun _ => rfl

theorem meaning_loadShort (rD : Reg) (k : Byte) (sh : Shift) (sf : SF) : Meaning (.loadShort rD k sh sf) := by
  cases sf with
  | s => exact .refused _ rfl fun _ => rfl
  | a | n => exact .load rD (.const (shifted (zext16 k) sh)) rfl rfl rfl rfl fun _ => rfl

theorem meaning_loadReg (rD rS : Reg) (sh : Shift) (sf : SF) : Meaning (.loadReg rD rS sh sf) := by
  cases sf with
  | s => exact .refused _ rfl fun _ => rfl
  | a | n =>
    cases sh with
    | lsl n => exact .refused _ rfl fun _ => rfl
    | noShift => exact .load rD (.reg rS) rfl rfl rfl rfl fun _ => rfl

/-- Every instruction has a meaning of one of the three forms: one arm of `exec` at a time. -/
theorem exec_meaning (i : Instr) : Meaning i :=
  match i with
  | .addImm .. | .adcImm .. | .subImm .. | .sbcImm .. | .andImm .. | .orrImm .. | .xorImm ..
  | .cmpImm .. | .tsaImm .. | .tsxImm .. => meaning_of_aluImm rfl rfl rfl
  | .addShort .. | .adcShort .. | .subShort .. | .sbcShort .. | .andShort .. | .orrShort .. | .xorShort ..
  | .cmpShort .. | .tsaShort .. | .tsxShort .. => meaning_of_aluShort rfl rfl rfl
  | .addReg .. | .adcReg .. | .subReg .. | .sbcReg .. | .andReg .. | .orrReg .. | .xorReg ..
  | .cmpReg .. | .tsaReg .. | .tsxReg .. => meaning_of_aluReg rfl rfl rfl
  | .loadImm rD k sf => meaning_loadImm rD k sf
  | .loadShort rD k sh sf => meaning_loadShort rD k sh sf
  | .loadReg rD rS sh sf => meaning_loadReg rD rS sh sf

/-! ### What every meaning keeps -/

@[simp] theorem refuse_ne_next (r : RefuseReason) (t : State) : refuse r ≠ .next t := by
  simp [refuse]

@[simp] theorem refuse_ne_fault (r : RefuseReason) (f : Fault) : refuse r ≠ .fault f := by
  simp [refuse]

/-- No instruction transfers control or writes the program store (`10_state.md` R12, `20_memory.md` R28). -/
theorem exec_next_position {i : Instr} {s t : State} (h : exec i s = .next t) :
    t.pc = s.pc + 1 ∧ t.program = s.program := by
  cases exec_meaning i with
  | refused r _ exec_eq => exact absurd ((exec_eq s).symm.trans h) (refuse_ne_next r t)
  | load rD v _ _ _ _ exec_eq =>
    cases (exec_eq s).symm.trans h
    exact ⟨loadStep_pc .., loadStep_program ..⟩
  | alu f rS1 sh b _ _ _ exec_eq =>
    cases (exec_eq s).symm.trans h
    exact ⟨aluStep_pc .., aluStep_program ..⟩

/-- The spec defines no hardware fault (`60_exceptions.md` R110): no instruction raises one. -/
theorem exec_ne_fault (i : Instr) (s : State) (f : Fault) : exec i s ≠ .fault f := by
  cases exec_meaning i with
  | refused r _ exec_eq => simp [exec_eq]
  | load rD v _ _ _ _ exec_eq => simp [exec_eq]
  | alu g rS1 sh b _ _ _ exec_eq => simp [exec_eq]

/-! ### What the flags before a step have to do with the state after it -/

/-- A LOAD that R30 does not refuse has another override than `[S]` (R60). -/
theorem sf_ne_s_of_load {i : Instr} (h : i.refusal = none) (hop : i.op = .load) : i.sf ≠ .s := by
  intro hsf
  cases hs : i.shape with
  | imm op r k sf =>
    simp only [Instr.sf, hs] at hsf
    simp [Instr.refusal, hs, hsf] at h
  | short op r k sh sf =>
    simp only [Instr.op, Instr.sf, hs] at hop hsf
    simp [Instr.refusal, hs, hop, hsf] at h
  | reg op rD rS1 rS2 sh sf =>
    simp only [Instr.op, Instr.sf, hs] at hop hsf
    simp [Instr.refusal, hs, hop, hsf] at h

/-- LOAD's new registers depend on the old registers alone. -/
@[simp] theorem loadStep_setSr_regs (rD : Reg) (v : Word) (s : State) (sr : StatusRegister) :
    (loadStep rD v (s.setSr sr)).regs = (loadStep rD v s).regs := rfl

/-- The old flags reach the new registers through C alone. -/
theorem aluStep_setSr_regs {f : AluFn} {a b : Word} {sh : Shift} {s : State} {sr : StatusRegister}
    (hf : f (shifted a sh) b sr.c = f (shifted a sh) b s.sr.c) (d : Option Reg) (sf : SF) :
    (aluStep f d a sh b sf (s.setSr sr)).regs = (aluStep f d a sh b sf s).regs := by
  cases d with
  | none => rfl
  | some r => simp [aluStep, hf]

/-- R58: the flags under `[S]` take no more of the old flags than `ShiftCV` does, C and V. -/
theorem flagsFromShift_congr (sh : Shift) (a : Word) {sr sr' : StatusRegister} (hc : sr.c = sr'.c)
    (hv : sr.v = sr'.v) : flagsFromShift sh a sr = flagsFromShift sh a sr' := by
  simp [flagsFromShift, hc, hv]

/-! ### A step with nothing to fetch -/

/-- Fetch stops exactly outside the program, and names the end apart from what lies past it. -/
theorem fetch_stop_iff {s : State} {f : Fault} :
    s.fetch = .stop f ↔
      s.program.length ≤ s.pc ∧ f = if s.pc = s.program.length then .runEnded else .pcPastProgram := by
  unfold State.fetch
  split
  case h_1 e he =>
    obtain ⟨hlt, -⟩ := List.getElem?_eq_some_iff.mp he
    have hin : ¬ s.program.length ≤ s.pc := by omega
    cases hd : decodeEntry e with
    | ok i => simp [hin]
    | error r => simp [hin]
  case h_2 hnone =>
    have hout : s.program.length ≤ s.pc := List.getElem?_eq_none_iff.mp hnone
    split <;> simp [hout, eq_comm]

/-- A step faults exactly if there is nothing to fetch: neither an instruction nor a refused word faults. -/
theorem step_fault_iff {s : State} {f : Fault} : step s = .fault f ↔ s.fetch = .stop f := by
  unfold step
  cases hf : s.fetch with
  | instr i => simpa using exec_ne_fault i s f
  | refused r => simp
  | stop g => simp

end Sys2Proof.Machine
end

section
/-! The statements of `10_state.md`: the program position, the flags an instruction reads, the end of the run. -/

namespace Sys2Proof.Machine

/-- Settles O43: a step that answers a next state found an entry at `pc`, so `pc` was inside the program, and no
meaning does more to `pc` and the program than to move on by one. -/
theorem stepKeepsProgramPosition : Obligations.StepKeepsProgramPosition := by
  intro s t _ h
  obtain ⟨e, i, he, -, hexec⟩ := step_next h
  obtain ⟨hlt, -⟩ := List.getElem?_eq_some_iff.mp he
  obtain ⟨hpc, hprogram⟩ := exec_next_position hexec
  refine ⟨?_, hpc, hprogram⟩
  show t.pc ≤ t.program.length
  rw [hpc, hprogram]
  exact hlt

/-- Settles O39, by the form of the instruction's meaning: LOAD reads no flag, and the common shape of R61 reads them
in the ALU operation's carry-in and in `ShiftCV`. -/
theorem flagsReadOnlyThroughCarry : Obligations.FlagsReadOnlyThroughCarry := by
  intro i s t sr hcarry h
  change ∃ u, exec i (s.setSr sr) = .next u ∧ _
  cases exec_meaning i with
  | refused r _ exec_eq => exact absurd ((exec_eq s).symm.trans h) (refuse_ne_next r t)
  | load rD v admitted hop _ _ exec_eq =>
    cases (exec_eq s).symm.trans h
    refine ⟨_, exec_eq _, by simp, fun _ hne => absurd hop hne, fun hs => ?_⟩
    exact absurd hs (sf_ne_s_of_load admitted hop)
  | alu f rS1 sh b _ hf _ exec_eq =>
    cases (exec_eq s).symm.trans h
    have hsame : ∀ x y, f x y sr.c = f x y s.sr.c := fun x y => by
      by_cases hop : i.op = .adc ∨ i.op = .sbc
      · rw [hcarry hop]
      · exact aluOf_ignores_carry hf hop x y _ _
    refine ⟨_, exec_eq _, ?_, fun ha _ => ?_, fun hs hc hv => ?_⟩
    · simpa using aluStep_setSr_regs (hsame _ _) i.dest i.sf
    · simp [ha, updateFlags, hsame]
    · simpa [hs, updateFlags] using flagsFromShift_congr sh _ hc hv

/-- Settles O42: a step faults exactly if fetch stops, and fetch names the end of the program apart from what lies
past it. -/
theorem runEndsAtProgramEnd : Obligations.RunEndsAtProgramEnd := by
  intro s
  refine ⟨?_, ?_⟩
  · rw [step_fault_iff, fetch_stop_iff]
    show _ ↔ s.pc = s.program.length
    constructor
    · rintro ⟨-, h⟩
      by_contra hne
      simp [hne] at h
    · intro hend
      simp [hend]
  · simp only [step_fault_iff, fetch_stop_iff, exists_and_left, exists_eq, and_true]

end Sys2Proof.Machine
end

section
/-! The statements of `20_memory.md`: the program store as the outside world fills it (`70_reset_and_hazards.md` R127,
log entry 5). -/

namespace Sys2Proof.Machine

/-- The entry placed is the one read back, also where the program had to grow to hold it. -/
@[simp] theorem getElem?_placeEntry_same (p : List ProgramEntry) (k : Nat) (e : ProgramEntry) :
    (placeEntry p k e)[k]? = some e := by
  induction p, k using placeEntry.induct with
  | case1 => rfl
  | case2 k ih => exact ih
  | case3 => rfl
  | case4 x rest k ih => exact ih

/-- Placing an entry leaves every other entry the program had. -/
theorem getElem?_placeEntry_other {p : List ProgramEntry} {k j : Nat} (e : ProgramEntry) (hj : j < p.length)
    (hne : j ≠ k) : (placeEntry p k e)[j]? = p[j]? := by
  induction p, k using placeEntry.induct generalizing j with
  | case1 | case2 => simp at hj
  | case3 x rest =>
    obtain ⟨j, rfl⟩ := Nat.exists_eq_succ_of_ne_zero hne
    rfl
  | case4 x rest k ih =>
    cases j with
    | zero => rfl
    | succ j => exact ih (Nat.lt_of_succ_lt_succ hj) (fun h => hne (congrArg _ h))

/-- With all 32 bits in use the table numbers the bits as the machine word does: no further cut. -/
@[simp] theorem tableWord_32 (w : Nat) : tableWord 32 w = BitVec.ofNat 32 w := by
  apply BitVec.eq_of_toNat_eq
  simp [tableWord]

@[simp] theorem State.withFetchWord_pc (s : State) (nbits w : Nat) : (s.withFetchWord nbits w).pc = s.pc := rfl
@[simp] theorem State.withFetchWord_program (s : State) (nbits w : Nat) :
    (s.withFetchWord nbits w).program = placeEntry s.program s.pc (.word (tableWord nbits w)) := rfl

/-- The word placed is the entry at `pc`, where the next step fetches. -/
theorem State.withFetchWord_entry (s : State) (w : Nat) :
    (s.withFetchWord 32 w).program[s.pc]? = some (.word (BitVec.ofNat 32 w)) := by
  simp

/-- Settles O48: the entry at `pc` is the word placed, so the next step is the meaning of the instruction it decodes to;
the other entries are those of `placeEntry`, and `withFetchWord` updates no other field. -/
theorem placedWordIsFetched : Obligations.PlacedWordIsFetched := by
  intro s w _
  have hentry := s.withFetchWord_entry w
  refine ⟨hentry, fun k hk hne => ?_, rfl, fun i hdecode => ?_⟩
  · exact getElem?_placeEntry_other _ hk hne
  · exact step_of_entry hentry hdecode

end Sys2Proof.Machine
end

section
/-! The layer under the statements about words: what each code of `30_encoding.md` reads back to, and a word put together
again from its fields. -/

namespace Sys2Proof

open Machine (NamesNoRegister)

/-! ### One check after another -/

theorem bind_eq_ok_iff {ε α β : Type} {x : Except ε α} {k : α → Except ε β} {b : β} :
    (x >>= k) = .ok b ↔ ∃ a, x = .ok a ∧ k a = .ok b := by
  cases x <;> simp [bind, Except.bind]

theorem bind_eq_error_iff {ε α β : Type} {x : Except ε α} {k : α → Except ε β} {e : ε} :
    (x >>= k) = .error e ↔ x = .error e ∨ ∃ a, x = .ok a ∧ k a = .error e := by
  cases x <;> simp [bind, Except.bind]

@[simp] theorem ok_bind {ε α β : Type} (a : α) (k : α → Except ε β) : (Except.ok a >>= k) = k a := rfl

@[simp] theorem error_bind {ε α β : Type} (e : ε) (k : α → Except ε β) : (Except.error e >>= k) = .error e := rfl

/-! ### Registers (R35) -/

theorem Reg.ofCode_eq_ok_iff {b : BitVec 4} {r : Reg} : Reg.ofCode b = .ok r ↔ b = r.code := by
  revert b
  cases r <;> decide

theorem Reg.ofCode_of_namesNoRegister :
    ∀ {b : BitVec 4}, NamesNoRegister b → Reg.ofCode b = .error .registerNotInScope := by
  decide

theorem Reg.ofCode_isOk_of_namesRegister : ∀ {b : BitVec 4}, ¬ NamesNoRegister b → (Reg.ofCode b).isOk = true := by
  decide

/-- A field value that is neither 0 nor 8 to 15 is the code of a register. -/
theorem Reg.exists_code {b : BitVec 4} (h : ¬ NamesNoRegister b) : ∃ r : Reg, b = r.code := by
  have hok := Reg.ofCode_isOk_of_namesRegister h
  cases hr : Reg.ofCode b with
  | ok r => exact ⟨r, Reg.ofCode_eq_ok_iff.mp hr⟩
  | error e => simp [hr, Except.isOk, Except.toBool] at hok

theorem Reg.ofCode_error {b : BitVec 4} {e : RefuseReason} (h : Reg.ofCode b = .error e) : e = .registerNotInScope := by
  by_cases hb : NamesNoRegister b
  · rw [Reg.ofCode_of_namesNoRegister hb] at h
    cases h
    rfl
  · obtain ⟨r, rfl⟩ := Reg.exists_code hb
    simp at h

/-! ### Status overrides (R36) -/

theorem SF.ofCode_eq_ok_iff {b : BitVec 2} {sf : SF} : SF.ofCode b = .ok sf ↔ b = sf.code := by
  revert b
  cases sf <;> decide

theorem SF.code_inj {sf sf' : SF} : sf.code = sf'.code ↔ sf = sf' := by
  rw [← SF.ofCode_eq_ok_iff, SF.ofCode_code, Except.ok.injEq]

theorem SF.ofCode_three : SF.ofCode 3#2 = .error .statusSourceReserved := rfl

/-- Every `sf` field but 3 is the code of an override. -/
theorem SF.exists_code {b : BitVec 2} (h : b ≠ 3#2) : ∃ sf : SF, b = sf.code := by
  have hcodes : ∀ b : BitVec 2, b ≠ 3#2 → b = 0#2 ∨ b = 1#2 ∨ b = 2#2 := by decide
  obtain h | h | h := hcodes b h
  · exact ⟨.a, h⟩
  · exact ⟨.s, h⟩
  · exact ⟨.n, h⟩

/-! ### Shift operands (R38) -/

theorem Shift.ofFields_of_shsel {shsel : BitVec 1} (h : shsel ≠ 0#1) (shtype : BitVec 3) (shcnt : BitVec 4) :
    Shift.ofFields shsel shtype shcnt = .error .registerShiftAmountNotInSource := by
  simp [Shift.ofFields, h]

theorem Shift.ofFields_of_shtype {shtype : BitVec 3} (h : 2 ≤ shtype.toNat) (shcnt : BitVec 4) :
    Shift.ofFields 0#1 shtype shcnt = .error .shiftTypeNotInSource := by
  unfold Shift.ofFields
  rw [if_neg (by simp)]
  split
  · omega
  · omega
  · rfl

theorem Shift.ofFields_of_shcnt {shcnt : BitVec 4} (h : shcnt ≠ 0#4) :
    Shift.ofFields 0#1 0#3 shcnt = .error .shiftCountWithoutShift := by
  simp [Shift.ofFields, h]

/-- The shift fields a shift operand may have: the two rows of R38's table that are not refused. -/
theorem Shift.exists_code {shtype : BitVec 3} {shcnt : BitVec 4} (h : shtype = 0#3 ∧ shcnt = 0#4 ∨ shtype = 1#3) :
    ∃ sh : Shift, shtype = sh.typeCode ∧ shcnt = sh.count := by
  obtain ⟨ht, hc⟩ | ht := h
  · exact ⟨.noShift, ht, hc⟩
  · exact ⟨.lsl shcnt, ht, rfl⟩

/-- R38's table: which shift fields are refused, with which reason, and that the others are those of a shift operand. -/
theorem Shift.ofFields_cases (shsel : BitVec 1) (shtype : BitVec 3) (shcnt : BitVec 4) :
    (∃ e ∈ [RefuseReason.registerShiftAmountNotInSource, .shiftTypeNotInSource, .shiftCountWithoutShift],
      Shift.ofFields shsel shtype shcnt = .error e) ∨
    (shsel = 0#1 ∧ ∃ sh : Shift, shtype = sh.typeCode ∧ shcnt = sh.count) := by
  by_cases hsel : shsel = 0#1
  case neg => exact .inl ⟨_, by simp, Shift.ofFields_of_shsel hsel _ _⟩
  subst hsel
  obtain ht | ht | ht : 2 ≤ shtype.toNat ∨ shtype = 0#3 ∨ shtype = 1#3 := by bv_omega
  · exact .inl ⟨_, by simp, Shift.ofFields_of_shtype ht _⟩
  · by_cases hc : shcnt = 0#4
    · exact .inr ⟨rfl, Shift.exists_code (.inl ⟨ht, hc⟩)⟩
    · exact .inl ⟨_, by simp, ht ▸ Shift.ofFields_of_shcnt hc⟩
  · exact .inr ⟨rfl, Shift.exists_code (.inr ht)⟩

theorem Shift.ofFields_eq_ok_iff {shsel : BitVec 1} {shtype : BitVec 3} {shcnt : BitVec 4} {sh : Shift} :
    Shift.ofFields shsel shtype shcnt = .ok sh ↔ shsel = 0#1 ∧ shtype = sh.typeCode ∧ shcnt = sh.count := by
  constructor
  · intro h
    obtain ⟨e, -, he⟩ | ⟨hsel, sh', ht, hc⟩ := Shift.ofFields_cases shsel shtype shcnt
    · simp [he] at h
    · subst hsel ht hc
      simp only [Shift.ofFields_code, Except.ok.injEq] at h
      subst h
      exact ⟨rfl, rfl, rfl⟩
  · rintro ⟨rfl, rfl, rfl⟩
    exact Shift.ofFields_code sh

theorem Shift.ofFields_error {shsel : BitVec 1} {shtype : BitVec 3} {shcnt : BitVec 4} {e : RefuseReason}
    (h : Shift.ofFields shsel shtype shcnt = .error e) :
    e ∈ [RefuseReason.registerShiftAmountNotInSource, .shiftTypeNotInSource, .shiftCountWithoutShift] := by
  obtain ⟨e', hmem, he⟩ | ⟨rfl, sh, rfl, rfl⟩ := Shift.ofFields_cases shsel shtype shcnt
  · rw [he] at h
    cases h
    exact hmem
  · simp at h

/-! ### Opcodes (R32, R41) -/

theorem Format.ofCode_eq_some {b : BitVec 2} {f : Format} (h : Format.ofCode b = some f) : b = f.code := by
  revert b
  cases f <;> decide

theorem Op.ofOpnum_eq_some {n : BitVec 4} {op : Op} (h : Op.ofOpnum n = some op) : n = op.opnum := by
  revert n
  cases op <;> decide

theorem lookupOpcode_eq_some_iff {o : BitVec 6} {f : Format} {op : Op} :
    lookupOpcode o = some (f, op) ↔ o = opcodeOf f op := by
  constructor
  · intro h
    unfold lookupOpcode at h
    split at h
    case h_1 f' op' hf hop =>
      cases h
      rw [opcodeOf, ← Format.ofCode_eq_some hf, ← Op.ofOpnum_eq_some hop]
      rw [BitVec.extractLsb'_append_extractLsb'_eq_extractLsb' (by rfl)]
      exact BitVec.extractLsb'_eq_self.symm
    case h_2 => cases h
  · rintro rfl
    exact lookupOpcode_opcodeOf f op

theorem opcodeOf_inj {f f' : Format} {op op' : Op} : opcodeOf f op = opcodeOf f' op' ↔ f = f' ∧ op = op' := by
  rw [← lookupOpcode_eq_some_iff, lookupOpcode_opcodeOf, Option.some.injEq, Prod.mk.injEq]

/-- Bit 31 of a word with a listed opcode tells the Immediate format from the other two. -/
theorem getLsbD_31_iff {w : InstrWord} {f : Format} {op : Op} (h : fieldOpcode w = opcodeOf f op) :
    w.getLsbD 31 = true ↔ f ≠ .imm := by
  have hbit : w.getLsbD 31 = ((opcodeOf f op).extractLsb' 4 2).getLsbD 1 := by simp [← h, fieldOpcode]
  rw [hbit, opcodeOf, extract_high]
  cases f <;> decide

/-- The two upper bits of an opcode are 11 in the Register format. -/
theorem extract_opcodeOf_eq_three_iff (f : Format) (op : Op) : (opcodeOf f op).extractLsb' 4 2 = 3#2 ↔ f = .reg := by
  rw [opcodeOf, extract_high]
  cases f <;> decide

/-- CMPR, TSAR, TSXR. -/
theorem opcodeOf_mem_tests_iff (f : Format) (op : Op) :
    opcodeOf f op ∈ [0x3A#6, 0x3C#6, 0x3E#6] ↔ f = .reg ∧ op.isTest = true := by
  cases f <;> cases op <;> decide

/-! ### A word is its fields (R31) -/

theorem append_immFields (w : InstrWord) :
    fieldOpcode w ++ fieldRD w ++ fieldImm16 w ++ fieldSf w ++ fieldCond w = w := by
  unfold fieldOpcode fieldRD fieldImm16 fieldSf fieldCond
  iterate 4 rw [BitVec.extractLsb'_append_extractLsb'_eq_extractLsb' (by rfl)]
  exact BitVec.extractLsb'_eq_self

theorem append_shortFields (w : InstrWord) :
    fieldOpcode w ++ fieldRD w ++ fieldImm8 w ++ fieldShsel w ++ fieldShtype w ++ fieldShcnt w ++ fieldSf w ++ fieldCond w
      = w := by
  unfold fieldOpcode fieldRD fieldImm8 fieldShsel fieldShtype fieldShcnt fieldSf fieldCond
  iterate 7 rw [BitVec.extractLsb'_append_extractLsb'_eq_extractLsb' (by rfl)]
  exact BitVec.extractLsb'_eq_self

theorem append_regFields (w : InstrWord) :
    fieldOpcode w ++ fieldRD w ++ fieldRS1 w ++ fieldRS2 w ++ fieldShsel w ++ fieldShtype w ++ fieldShcnt w ++ fieldSf w
      ++ fieldCond w = w := by
  unfold fieldOpcode fieldRD fieldRS1 fieldRS2 fieldShsel fieldShtype fieldShcnt fieldSf fieldCond
  iterate 8 rw [BitVec.extractLsb'_append_extractLsb'_eq_extractLsb' (by rfl)]
  exact BitVec.extractLsb'_eq_self

end Sys2Proof
end

section
/-! The decoder stage by stage (`30_encoding.md` R39): when each stage passes and what it then reads, and the two
directions of the round trip. -/

namespace Sys2Proof

/-! ### Steps 1 to 3, and step 6 -/

theorem decode_of_opcode_none {w : InstrWord} (h : lookupOpcode (fieldOpcode w) = none) :
    decode w = .error .opcodeNotInSource := by
  simp [decode, h]

theorem decode_of_cond {w : InstrWord} {f : Format} {op : Op} (hop : fieldOpcode w = opcodeOf f op)
    (hcond : fieldCond w ≠ 0#4) : decode w = .error .conditionNotInSource := by
  simp [decode, hop, hcond]

theorem decode_of_sf {w : InstrWord} {f : Format} {op : Op} (hop : fieldOpcode w = opcodeOf f op)
    (hcond : fieldCond w = 0#4) (hsf : fieldSf w = 3#2) : decode w = .error .statusSourceReserved := by
  simp [decode, hop, hcond, hsf, SF.ofCode_three]

/-- A word that passes steps 1 to 3 goes through steps 4 and 5, and then 6. -/
theorem decode_eq_fields_bind {w : InstrWord} {f : Format} {op : Op} {sf : SF} (hop : fieldOpcode w = opcodeOf f op)
    (hcond : fieldCond w = 0#4) (hsf : fieldSf w = sf.code) : decode w = decodeFields f op w sf >>= checkTerm := by
  simp [decode, hop, hcond, hsf]

/-- A word fails in steps 1 to 3 or passes them. -/
theorem decode_header_cases (w : InstrWord) :
    (lookupOpcode (fieldOpcode w) = none ∧ decode w = .error .opcodeNotInSource) ∨
    (∃ e ∈ [RefuseReason.conditionNotInSource, .statusSourceReserved], decode w = .error e) ∨
    ∃ (f : Format) (op : Op) (sf : SF), fieldOpcode w = opcodeOf f op ∧ fieldCond w = 0#4 ∧ fieldSf w = sf.code := by
  cases hl : lookupOpcode (fieldOpcode w) with
  | none => exact .inl ⟨rfl, decode_of_opcode_none hl⟩
  | some fop =>
    obtain ⟨f, op⟩ := fop
    have hop := lookupOpcode_eq_some_iff.mp hl
    refine .inr ?_
    by_cases hcond : fieldCond w = 0#4
    case neg => exact .inl ⟨_, by simp, decode_of_cond hop hcond⟩
    by_cases hsf : fieldSf w = 3#2
    case pos => exact .inl ⟨_, by simp, decode_of_sf hop hcond hsf⟩
    obtain ⟨sf, hsf⟩ := SF.exists_code hsf
    exact .inr ⟨f, op, sf, hop, hcond, hsf⟩

theorem checkTerm_eq_ok_iff {i j : Instr} : checkTerm i = .ok j ↔ i = j ∧ i.WellFormed := by
  unfold checkTerm Instr.WellFormed
  cases i.refusal <;> simp

theorem checkTerm_eq_error_iff {i : Instr} {e : RefuseReason} : checkTerm i = .error e ↔ i.refusal = some e := by
  unfold checkTerm
  cases i.refusal <;> simp

/-- A word decodes exactly if it passes steps 1 to 3, its fields are read, and the instruction read is admitted. -/
theorem decode_eq_ok_iff {w : InstrWord} {i : Instr} :
    decode w = .ok i ↔ ∃ f op sf, fieldOpcode w = opcodeOf f op ∧ fieldCond w = 0#4 ∧ fieldSf w = sf.code ∧
      decodeFields f op w sf = .ok i ∧ i.WellFormed := by
  constructor
  · intro h
    obtain ⟨-, he⟩ | ⟨e, -, he⟩ | ⟨f, op, sf, hop, hcond, hsf⟩ := decode_header_cases w
    · simp [he] at h
    · simp [he] at h
    · rw [decode_eq_fields_bind hop hcond hsf, bind_eq_ok_iff] at h
      obtain ⟨j, hj, hcheck⟩ := h
      obtain ⟨rfl, hwf⟩ := checkTerm_eq_ok_iff.mp hcheck
      exact ⟨f, op, sf, hop, hcond, hsf, hj, hwf⟩
  · rintro ⟨f, op, sf, hop, hcond, hsf, hi, hwf⟩
    rw [decode_eq_fields_bind hop hcond hsf, hi, ok_bind]
    exact checkTerm_eq_ok_iff.mpr ⟨rfl, hwf⟩

/-! ### Steps 4 and 5: what is read -/

theorem decodeFields_imm_eq_ok_iff {op : Op} {w : InstrWord} {sf : SF} {i : Instr} :
    decodeFields .imm op w sf = .ok i ↔ ∃ r : Reg, fieldRD w = r.code ∧ .ofImm op r (fieldImm16 w) sf = i := by
  simp [decodeFields, bind_eq_ok_iff, Reg.ofCode_eq_ok_iff]

/-- The shift fields of a word are those of a shift operand. -/
def ShiftFields (w : InstrWord) (sh : Shift) : Prop :=
  fieldShsel w = 0#1 ∧ fieldShtype w = sh.typeCode ∧ fieldShcnt w = sh.count

theorem ofFields_word_eq_ok_iff {w : InstrWord} {sh : Shift} :
    Shift.ofFields (fieldShsel w) (fieldShtype w) (fieldShcnt w) = .ok sh ↔ ShiftFields w sh :=
  Shift.ofFields_eq_ok_iff

theorem decodeFields_short_eq_ok_iff {op : Op} {w : InstrWord} {sf : SF} {i : Instr} :
    decodeFields .short op w sf = .ok i ↔
      ∃ sh, ShiftFields w sh ∧ ∃ r : Reg, fieldRD w = r.code ∧ .ofShort op r (fieldImm8 w) sh sf = i := by
  simp [decodeFields, bind_eq_ok_iff, Reg.ofCode_eq_ok_iff, ofFields_word_eq_ok_iff]

theorem decodeFields_reg_eq_ok_iff {op : Op} {w : InstrWord} {sf : SF} {i : Instr} :
    decodeFields .reg op w sf = .ok i ↔ ∃ sh, ShiftFields w sh ∧ decodeReg op w sh sf = .ok i := by
  simp [decodeFields, bind_eq_ok_iff, ofFields_word_eq_ok_iff]

theorem decodeReg3_eq_ok_iff {mk : Reg → Reg → Reg → Shift → SF → Instr} {w : InstrWord} {sh : Shift} {sf : SF}
    {i : Instr} :
    decodeReg3 mk w sh sf = .ok i ↔
      ∃ rD : Reg, fieldRD w = rD.code ∧ ∃ rS1 : Reg, fieldRS1 w = rS1.code ∧ ∃ rS2 : Reg, fieldRS2 w = rS2.code ∧
        mk rD rS1 rS2 sh sf = i := by
  simp [decodeReg3, bind_eq_ok_iff, Reg.ofCode_eq_ok_iff]

theorem decodeRegTest_eq_ok_iff {mk : Reg → Reg → Shift → SF → Instr} {w : InstrWord} {sh : Shift} {sf : SF}
    {i : Instr} :
    decodeRegTest mk w sh sf = .ok i ↔
      ∃ rS1 : Reg, fieldRS1 w = rS1.code ∧ ∃ rS2 : Reg, fieldRS2 w = rS2.code ∧ fieldRD w = 0#4 ∧
        mk rS1 rS2 sh sf = i := by
  simp [decodeRegTest, bind_eq_ok_iff, Reg.ofCode_eq_ok_iff, ite_eq_iff]

theorem decodeRegLoad_eq_ok_iff {w : InstrWord} {sh : Shift} {sf : SF} {i : Instr} :
    decodeRegLoad w sh sf = .ok i ↔
      ∃ rD : Reg, fieldRD w = rD.code ∧ ∃ rS : Reg, fieldRS2 w = rS.code ∧ (fieldRS1 w = 0#4 ∧ sh = .noShift) ∧
        .loadReg rD rS sh sf = i := by
  simp [decodeRegLoad, bind_eq_ok_iff, Reg.ofCode_eq_ok_iff, ite_eq_iff]

/-- The register fields of a Register-format word hold the operands, and 0 where the operation has none (R40). -/
structure RegFields (w : InstrWord) (rD rS1 : Option Reg) (rS2 : Reg) : Prop where
  rD : fieldRD w = Reg.codeOrZero rD
  rS1 : fieldRS1 w = Reg.codeOrZero rS1
  rS2 : fieldRS2 w = rS2.code

/-- What a Register-format word reads: the operands are those of its fields, and LOAD has no shift. -/
structure RegRead (op : Op) (w : InstrWord) (sh : Shift) (sf : SF) (i : Instr) : Prop where
  operands : ∃ rD rS1 rS2, RegFields w rD rS1 rS2 ∧ i.shape = .reg op rD rS1 rS2 sh sf
  load_noShift : op = .load → sh = .noShift

theorem regRead_of_decodeReg3 {op : Op} {mk : Reg → Reg → Reg → Shift → SF → Instr} {w : InstrWord} {sh : Shift}
    {sf : SF} {i : Instr} (hop : op ≠ .load)
    (hmk : ∀ rD rS1 rS2, (mk rD rS1 rS2 sh sf).shape = .reg op (some rD) (some rS1) rS2 sh sf)
    (h : decodeReg3 mk w sh sf = .ok i) : RegRead op w sh sf i := by
  obtain ⟨rD, hrD, rS1, hrS1, rS2, hrS2, rfl⟩ := decodeReg3_eq_ok_iff.mp h
  exact ⟨⟨some rD, some rS1, rS2, ⟨hrD, hrS1, hrS2⟩, hmk ..⟩, fun h => absurd h hop⟩

theorem regRead_of_decodeRegTest {op : Op} {mk : Reg → Reg → Shift → SF → Instr} {w : InstrWord} {sh : Shift}
    {sf : SF} {i : Instr} (hop : op ≠ .load)
    (hmk : ∀ rS1 rS2, (mk rS1 rS2 sh sf).shape = .reg op none (some rS1) rS2 sh sf)
    (h : decodeRegTest mk w sh sf = .ok i) : RegRead op w sh sf i := by
  obtain ⟨rS1, hrS1, rS2, hrS2, hrD, rfl⟩ := decodeRegTest_eq_ok_iff.mp h
  exact ⟨⟨none, some rS1, rS2, ⟨hrD, hrS1, hrS2⟩, hmk ..⟩, fun h => absurd h hop⟩

theorem regRead_of_decodeRegLoad {w : InstrWord} {sh : Shift} {sf : SF} {i : Instr}
    (h : decodeRegLoad w sh sf = .ok i) : RegRead .load w sh sf i := by
  obtain ⟨rD, hrD, rS, hrS, ⟨hrS1, hsh⟩, rfl⟩ := decodeRegLoad_eq_ok_iff.mp h
  exact ⟨⟨some rD, none, rS, ⟨hrD, hrS1, hrS⟩, rfl⟩, fun _ => hsh⟩

theorem regRead_of_decodeReg {op : Op} {w : InstrWord} {sh : Shift} {sf : SF} {i : Instr}
    (h : decodeReg op w sh sf = .ok i) : RegRead op w sh sf i := by
  cases op with
  | add | adc | sub | sbc | and | orr | xor => exact regRead_of_decodeReg3 (by decide) (fun _ _ _ => rfl) h
  | cmp | tsa | tsx => exact regRead_of_decodeRegTest (by decide) (fun _ _ => rfl) h
  | load => exact regRead_of_decodeRegLoad h

/-! ### Encoding what was read -/

theorem immWord_eq {w : InstrWord} {op : Op} {r : Reg} {sf : SF} (hop : fieldOpcode w = opcodeOf .imm op)
    (hcond : fieldCond w = 0#4) (hsf : fieldSf w = sf.code) (hr : fieldRD w = r.code) :
    immWord op r (fieldImm16 w) sf = w := by
  rw [immWord, ← hop, ← hr, ← hsf, ← hcond]
  exact append_immFields w

theorem shortWord_eq {w : InstrWord} {op : Op} {r : Reg} {sh : Shift} {sf : SF}
    (hop : fieldOpcode w = opcodeOf .short op) (hcond : fieldCond w = 0#4) (hsf : fieldSf w = sf.code)
    (hr : fieldRD w = r.code) (hsh : ShiftFields w sh) : shortWord op r (fieldImm8 w) sh sf = w := by
  obtain ⟨hsel, htype, hcnt⟩ := hsh
  rw [shortWord, ← hop, ← hr, ← hsel, ← htype, ← hcnt, ← hsf, ← hcond]
  exact append_shortFields w

theorem regWord_eq {w : InstrWord} {op : Op} {rD rS1 : Option Reg} {rS2 : Reg} {sh : Shift} {sf : SF}
    (hop : fieldOpcode w = opcodeOf .reg op) (hcond : fieldCond w = 0#4) (hsf : fieldSf w = sf.code)
    (hregs : RegFields w rD rS1 rS2) (hsh : ShiftFields w sh) : regWord op rD rS1 rS2 sh sf = w := by
  obtain ⟨hrD, hrS1, hrS2⟩ := hregs
  obtain ⟨hsel, htype, hcnt⟩ := hsh
  rw [regWord, ← hop, ← hrD, ← hrS1, ← hrS2, ← hsel, ← htype, ← hcnt, ← hsf, ← hcond]
  exact append_regFields w

/-- Settles O2: a word that decodes passed every check, so each of its fields is the code of what was read, and a word is
its fields. -/
theorem encodeOfDecode : Obligations.EncodeOfDecode := by
  intro w i h
  obtain ⟨f, op, sf, hop, hcond, hsf, hi, hwf⟩ := decode_eq_ok_iff.mp h
  refine ⟨hwf, ?_⟩
  cases f with
  | imm =>
    obtain ⟨r, hr, rfl⟩ := decodeFields_imm_eq_ok_iff.mp hi
    simpa only [encode, Instr.shape_ofImm] using immWord_eq hop hcond hsf hr
  | short =>
    obtain ⟨sh, hsh, r, hr, rfl⟩ := decodeFields_short_eq_ok_iff.mp hi
    simpa only [encode, Instr.shape_ofShort] using shortWord_eq hop hcond hsf hr hsh
  | reg =>
    obtain ⟨sh, hsh, hi⟩ := decodeFields_reg_eq_ok_iff.mp hi
    obtain ⟨⟨rD, rS1, rS2, hregs, hshape⟩, -⟩ := regRead_of_decodeReg hi
    simpa only [encode, hshape] using regWord_eq hop hcond hsf hregs hsh

/-! ### Decoding what was encoded -/

theorem decodeFields_immWord (op : Op) (r : Reg) (k : Word) (sf : SF) :
    decodeFields .imm op (immWord op r k sf) sf = .ok (.ofImm op r k sf) := by
  simp [decodeFields_imm_eq_ok_iff, ← Reg.ofCode_eq_ok_iff]

theorem shiftFields_shortWord (op : Op) (r : Reg) (k : Byte) (sh : Shift) (sf : SF) :
    ShiftFields (shortWord op r k sh sf) sh := by
  simp [ShiftFields]

theorem shiftFields_regWord (op : Op) (rD rS1 : Option Reg) (rS2 : Reg) (sh : Shift) (sf : SF) :
    ShiftFields (regWord op rD rS1 rS2 sh sf) sh := by
  simp [ShiftFields]

theorem decodeFields_shortWord (op : Op) (r : Reg) (k : Byte) (sh : Shift) (sf : SF) :
    decodeFields .short op (shortWord op r k sh sf) sf = .ok (.ofShort op r k sh sf) := by
  rw [decodeFields_short_eq_ok_iff]
  exact ⟨sh, shiftFields_shortWord .., r, by simp, by simp⟩

/-- The three register operands are read back. -/
theorem decodeFields_regWord_of_reg3 {op : Op} {mk : Reg → Reg → Reg → Shift → SF → Instr}
    (hop : ∀ w sh sf, decodeReg op w sh sf = decodeReg3 mk w sh sf) (rD rS1 rS2 : Reg) (sh : Shift) (sf : SF) :
    decodeFields .reg op (regWord op (some rD) (some rS1) rS2 sh sf) sf = .ok (mk rD rS1 rS2 sh sf) := by
  rw [decodeFields_reg_eq_ok_iff]
  refine ⟨sh, shiftFields_regWord .., ?_⟩
  rw [hop, decodeReg3_eq_ok_iff]
  exact ⟨rD, by simp [Reg.codeOrZero], rS1, by simp [Reg.codeOrZero], rS2, by simp, rfl⟩

/-- The two register operands of CMP, TSA and TSX are read back. -/
theorem decodeFields_regWord_of_regTest {op : Op} {mk : Reg → Reg → Shift → SF → Instr}
    (hop : ∀ w sh sf, decodeReg op w sh sf = decodeRegTest mk w sh sf) (rS1 rS2 : Reg) (sh : Shift) (sf : SF) :
    decodeFields .reg op (regWord op none (some rS1) rS2 sh sf) sf = .ok (mk rS1 rS2 sh sf) := by
  rw [decodeFields_reg_eq_ok_iff]
  refine ⟨sh, shiftFields_regWord .., ?_⟩
  rw [hop, decodeRegTest_eq_ok_iff]
  exact ⟨rS1, by simp [Reg.codeOrZero], rS2, by simp, by simp [Reg.codeOrZero], rfl⟩

/-- The two register operands of LOAD are read back, if the term has no shift. -/
theorem decodeFields_regWord_of_load {sh : Shift} (hsh : sh = .noShift) (rD rS : Reg) (sf : SF) :
    decodeFields .reg .load (regWord .load (some rD) none rS sh sf) sf = .ok (.loadReg rD rS sh sf) := by
  rw [decodeFields_reg_eq_ok_iff]
  refine ⟨sh, shiftFields_regWord .., decodeRegLoad_eq_ok_iff.mpr ?_⟩
  exact ⟨rD, by simp [Reg.codeOrZero], rS, by simp, ⟨by simp [Reg.codeOrZero], hsh⟩, rfl⟩

/-- A LOAD register term that R30 does not refuse has no shift. -/
theorem loadReg_noShift {rD rS : Reg} {sh : Shift} {sf : SF} (h : (Instr.loadReg rD rS sh sf).WellFormed) :
    sh = .noShift := by
  cases sh with
  | noShift => rfl
  | lsl n => cases sf <;> simp [Instr.WellFormed, Instr.refusal, Instr.shape] at h

/-- The fields of an admitted instruction's word read back as the instruction: one constructor at a time. -/
theorem decodeFields_encode (i : Instr) (h : i.WellFormed) : decodeFields i.format i.op (encode i) i.sf = .ok i :=
  match i with
  | .addImm .. | .adcImm .. | .subImm .. | .sbcImm .. | .andImm .. | .orrImm .. | .xorImm .. | .loadImm ..
  | .cmpImm .. | .tsaImm .. | .tsxImm .. => decodeFields_immWord ..
  | .addShort .. | .adcShort .. | .subShort .. | .sbcShort .. | .andShort .. | .orrShort .. | .xorShort ..
  | .loadShort .. | .cmpShort .. | .tsaShort .. | .tsxShort .. => decodeFields_shortWord ..
  | .addReg .. | .adcReg .. | .subReg .. | .sbcReg .. | .andReg .. | .orrReg .. | .xorReg .. =>
    decodeFields_regWord_of_reg3 (fun _ _ _ => rfl) ..
  | .cmpReg .. | .tsaReg .. | .tsxReg .. => decodeFields_regWord_of_regTest (fun _ _ _ => rfl) ..
  | .loadReg .. => decodeFields_regWord_of_load (loadReg_noShift h) ..

/-- The opcode, `sf` and `cond` fields of every instruction's word, by its format. -/
theorem opcodeField_encode (i : Instr) : Laws.OpcodeField.Statement i := by
  unfold Laws.OpcodeField.Statement
  cases hs : i.shape with
  | imm op r k sf => simpa only [encode, Instr.format, Instr.op, Instr.sf, hs] using Laws.opcodeField_imm op r k sf
  | short op r k sh sf =>
    simpa only [encode, Instr.format, Instr.op, Instr.sf, hs] using Laws.opcodeField_short op r k sh sf
  | reg op rD rS1 rS2 sh sf =>
    simpa only [encode, Instr.format, Instr.op, Instr.sf, hs] using Laws.opcodeField_reg op rD rS1 rS2 sh sf

/-- Settles O1: the word of an instruction passes steps 1 to 3, and the fields of an admitted one read back as it. -/
theorem decodeOfEncode : Obligations.DecodeOfEncode := by
  intro i h
  obtain ⟨hop, hsf, hcond⟩ := opcodeField_encode i
  exact decode_eq_ok_iff.mpr ⟨i.format, i.op, i.sf, hop, hcond, hsf, decodeFields_encode i h, h⟩

end Sys2Proof
end

section
/-! Why a word is refused (`30_encoding.md` R39): the reasons each stage can give, and the order of the checks. -/

namespace Sys2Proof

open Machine (NamesNoRegister FieldsBeforeRegistersPass)

/-! ### The reasons of each stage -/

/-- The reasons of steps 4 and 5. -/
def fieldReasons : List RefuseReason :=
  [.registerNotInScope, .registerShiftAmountNotInSource, .shiftTypeNotInSource, .shiftCountWithoutShift,
    .unusedFieldNonZero]

theorem Reg.ofCode_error_mem {b : BitVec 4} {e : RefuseReason} (h : Reg.ofCode b = .error e) : e ∈ fieldReasons := by
  simp [fieldReasons, Reg.ofCode_error h]

theorem Shift.ofFields_error_mem {shsel : BitVec 1} {shtype : BitVec 3} {shcnt : BitVec 4} {e : RefuseReason}
    (h : Shift.ofFields shsel shtype shcnt = .error e) : e ∈ fieldReasons :=
  List.mem_cons_of_mem _ (List.mem_append_left [_] (Shift.ofFields_error h))

/-- A register check followed by checks with these reasons gives one of these reasons. -/
theorem bind_ofCode_error_mem {b : BitVec 4} {k : Reg → Except RefuseReason Instr} {e : RefuseReason}
    (h : Reg.ofCode b >>= k = .error e) (hk : ∀ r, k r = .error e → e ∈ fieldReasons) : e ∈ fieldReasons := by
  obtain hb | ⟨r, -, hr⟩ := bind_eq_error_iff.mp h
  · exact Reg.ofCode_error_mem hb
  · exact hk r hr

/-- The same for the shift check. -/
theorem bind_ofFields_error_mem {w : InstrWord} {k : Shift → Except RefuseReason Instr} {e : RefuseReason}
    (h : Shift.ofFields (fieldShsel w) (fieldShtype w) (fieldShcnt w) >>= k = .error e)
    (hk : ∀ sh, k sh = .error e → e ∈ fieldReasons) : e ∈ fieldReasons := by
  obtain hb | ⟨sh, -, hsh⟩ := bind_eq_error_iff.mp h
  · exact Shift.ofFields_error_mem hb
  · exact hk sh hsh

/-- The check of the unused fields, the last of step 5. -/
theorem unusedCheck_error_mem {p : Prop} [Decidable p] {i : Instr} {e : RefuseReason}
    (h : (if p then Except.ok i else .error .unusedFieldNonZero) = .error e) : e ∈ fieldReasons := by
  split at h <;> cases h
  simp [fieldReasons]

theorem decodeReg3_error_mem {mk : Reg → Reg → Reg → Shift → SF → Instr} {w : InstrWord} {sh : Shift} {sf : SF}
    {e : RefuseReason} (h : decodeReg3 mk w sh sf = .error e) : e ∈ fieldReasons :=
  bind_ofCode_error_mem h fun _ h => bind_ofCode_error_mem h fun _ h => bind_ofCode_error_mem h fun _ h => nomatch h

theorem decodeRegTest_error_mem {mk : Reg → Reg → Shift → SF → Instr} {w : InstrWord} {sh : Shift} {sf : SF}
    {e : RefuseReason} (h : decodeRegTest mk w sh sf = .error e) : e ∈ fieldReasons :=
  bind_ofCode_error_mem h fun _ h => bind_ofCode_error_mem h fun _ h => unusedCheck_error_mem h

theorem decodeRegLoad_error_mem {w : InstrWord} {sh : Shift} {sf : SF} {e : RefuseReason}
    (h : decodeRegLoad w sh sf = .error e) : e ∈ fieldReasons :=
  bind_ofCode_error_mem h fun _ h => bind_ofCode_error_mem h fun _ h => unusedCheck_error_mem h

theorem decodeReg_error_mem {op : Op} {w : InstrWord} {sh : Shift} {sf : SF} {e : RefuseReason}
    (h : decodeReg op w sh sf = .error e) : e ∈ fieldReasons := by
  cases op with
  | add | adc | sub | sbc | and | orr | xor => exact decodeReg3_error_mem h
  | cmp | tsa | tsx => exact decodeRegTest_error_mem h
  | load => exact decodeRegLoad_error_mem h

theorem decodeFields_error_mem {f : Format} {op : Op} {w : InstrWord} {sf : SF} {e : RefuseReason}
    (h : decodeFields f op w sf = .error e) : e ∈ fieldReasons := by
  cases f with
  | imm => exact bind_ofCode_error_mem h fun _ h => nomatch h
  | short => exact bind_ofFields_error_mem h fun _ h => bind_ofCode_error_mem h fun _ h => nomatch h
  | reg => exact bind_ofFields_error_mem h fun _ h => decodeReg_error_mem h

/-- R30's refusals of a term that steps 4 and 5 can read: a shifted LOAD register term is none of them. -/
theorem refusal_of_decodeFields {f : Format} {op : Op} {w : InstrWord} {sf : SF} {i : Instr} {e : RefuseReason}
    (h : decodeFields f op w sf = .ok i) (he : i.refusal = some e) :
    e ∈ [RefuseReason.immFormatHasNoShifter, .loadShiftFlagsNotInSource] := by
  cases f with
  | imm =>
    obtain ⟨r, -, rfl⟩ := decodeFields_imm_eq_ok_iff.mp h
    simp only [Instr.refusal, Instr.shape_ofImm] at he
    split at he <;> cases he
    simp
  | short =>
    obtain ⟨sh, -, r, -, rfl⟩ := decodeFields_short_eq_ok_iff.mp h
    simp only [Instr.refusal, Instr.shape_ofShort] at he
    split at he <;> cases he
    simp
  | reg =>
    obtain ⟨sh, -, hi⟩ := decodeFields_reg_eq_ok_iff.mp h
    obtain ⟨⟨rD, rS1, rS2, -, hshape⟩, hload⟩ := regRead_of_decodeReg hi
    have hterm : ¬ (op = .load ∧ sh ≠ .noShift) := fun ⟨hop, hsh⟩ => hsh (hload hop)
    simp only [Instr.refusal, hshape, if_neg hterm] at he
    split at he <;> cases he
    simp

/-- Where a word's refusal comes from: step 1 with its own reason, or a later step with one of the others' reasons. -/
theorem decode_error_cases {w : InstrWord} {e : RefuseReason} (h : decode w = .error e) :
    (lookupOpcode (fieldOpcode w) = none ∧ e = .opcodeNotInSource) ∨
    e ∈ [RefuseReason.conditionNotInSource, .statusSourceReserved] ++ fieldReasons ++
      [.immFormatHasNoShifter, .loadShiftFlagsNotInSource] := by
  obtain ⟨hl, he⟩ | ⟨e', hmem, he⟩ | ⟨f, op, sf, hop, hcond, hsf⟩ := decode_header_cases w
  · rw [he] at h
    cases h
    exact .inl ⟨hl, rfl⟩
  · rw [he] at h
    cases h
    exact .inr (List.mem_append_left _ (List.mem_append_left _ hmem))
  · rw [decode_eq_fields_bind hop hcond hsf] at h
    obtain h | ⟨i, hi, hcheck⟩ := bind_eq_error_iff.mp h
    · exact .inr (List.mem_append_left _ (List.mem_append_right _ (decodeFields_error_mem h)))
    · have hrefusal := checkTerm_eq_error_iff.mp hcheck
      exact .inr (List.mem_append_right _ (refusal_of_decodeFields hi hrefusal))

/-- Only step 1 reports `OpcodeNotInSource`. -/
theorem decode_eq_opcodeNotInSource_iff {w : InstrWord} :
    decode w = .error .opcodeNotInSource ↔ lookupOpcode (fieldOpcode w) = none := by
  constructor
  · intro h
    obtain ⟨hl, -⟩ | hmem := decode_error_cases h
    · exact hl
    · exact absurd hmem (by decide)
  · exact decode_of_opcode_none

/-- The opcode is the number above bit 26. -/
theorem fieldOpcode_toNat (w : InstrWord) : (fieldOpcode w).toNat = w.toNat / 2 ^ 26 := by
  have hw := w.isLt
  simp only [fieldOpcode, BitVec.extractLsb'_toNat, Nat.shiftRight_eq_div_pow]
  omega

/-- R41's 33 opcodes among the 64 values of the field. -/
theorem lookupOpcode_eq_none_iff : ∀ o : BitVec 6, lookupOpcode o = none ↔
    o.toNat ∉ [0x00, 0x01, 0x02, 0x03, 0x04, 0x05, 0x06, 0x07, 0x0A, 0x0C, 0x0E,
       0x20, 0x21, 0x22, 0x23, 0x24, 0x25, 0x26, 0x27, 0x2A, 0x2C, 0x2E,
       0x30, 0x31, 0x32, 0x33, 0x34, 0x35, 0x36, 0x37, 0x3A, 0x3C, 0x3E] := by
  decide

/-- Settles O4: only step 1 gives this reason, and it looks at the opcode alone. -/
theorem opcodeNotInSourceExactly : Obligations.OpcodeNotInSourceExactly := by
  intro w
  rw [decode_eq_opcodeNotInSource_iff, lookupOpcode_eq_none_iff, fieldOpcode_toNat]

/-- Settles O8: it is a reason of no stage, because the LOAD register words that are read have no shift. -/
theorem noWordReportsLoadRegShift : Obligations.NoWordReportsLoadRegShift := by
  intro w h
  obtain ⟨-, he⟩ | hmem := decode_error_cases h
  · cases he
  · exact absurd hmem (by decide)

/-! ### The order of the checks -/

/-- A word that step 1 lets pass has an opcode of R41. -/
theorem exists_opcodeOf {w : InstrWord} (h : decode w ≠ .error .opcodeNotInSource) :
    ∃ f op, fieldOpcode w = opcodeOf f op := by
  cases hl : lookupOpcode (fieldOpcode w) with
  | none => exact absurd (decode_of_opcode_none hl) h
  | some fop => exact ⟨fop.1, fop.2, lookupOpcode_eq_some_iff.mp hl⟩

/-- Outside the Immediate format the shift fields are checked before the registers. -/
theorem decodeFields_of_shift_error {f : Format} {w : InstrWord} {e : RefuseReason} (hf : f ≠ .imm)
    (h : Shift.ofFields (fieldShsel w) (fieldShtype w) (fieldShcnt w) = .error e) (op : Op) (sf : SF) :
    decodeFields f op w sf = .error e := by
  cases f with
  | imm => exact absurd rfl hf
  | short | reg => simp [decodeFields, h]

/-- Settles O5, along R39's steps. -/
theorem decodeChecksInOrder : Obligations.DecodeChecksInOrder := by
  intro w hopcode
  obtain ⟨f, op, hop⟩ := exists_opcodeOf hopcode
  refine ⟨decode_of_cond hop, decode_of_sf hop, fun hcond hsf h31 => ?_⟩
  obtain ⟨sf, hsf⟩ := SF.exists_code hsf
  have hshift : ∀ e, Shift.ofFields (fieldShsel w) (fieldShtype w) (fieldShcnt w) = .error e → decode w = .error e := by
    intro e he
    rw [decode_eq_fields_bind hop hcond hsf, decodeFields_of_shift_error ((getLsbD_31_iff hop).mp h31) he, error_bind]
  refine ⟨fun hsel => ?_, fun hsel htype => ?_, fun hsel htype hcnt => ?_⟩
  · exact hshift _ (Shift.ofFields_of_shsel (by simp [hsel]) _ _)
  · exact hshift _ (hsel ▸ Shift.ofFields_of_shtype htype _)
  · exact hshift _ (hsel ▸ htype ▸ Shift.ofFields_of_shcnt hcnt)

/-! ### Register fields -/

/-- `FieldsBeforeRegistersPass`, read along R39: what the word has at the start of the register checks. -/
structure AtRegisterChecks (w : InstrWord) (f : Format) (op : Op) (sf : SF) : Prop where
  opcode : fieldOpcode w = opcodeOf f op
  status : fieldSf w = sf.code
  shift : f ≠ .imm → ∃ sh, ShiftFields w sh
  decode_eq : decode w = decodeFields f op w sf >>= checkTerm

theorem exists_atRegisterChecks {w : InstrWord} (h : FieldsBeforeRegistersPass w) :
    ∃ f op sf, AtRegisterChecks w f op sf := by
  obtain ⟨hopcode, hcond, hsf, hshift⟩ := h
  obtain ⟨f, op, hop⟩ := exists_opcodeOf hopcode
  obtain ⟨sf, hsf⟩ := SF.exists_code hsf
  refine ⟨f, op, sf, hop, hsf, fun hf => ?_, decode_eq_fields_bind hop hcond hsf⟩
  obtain ⟨hsel, hrest⟩ := hshift ((getLsbD_31_iff hop).mpr hf)
  obtain ⟨sh, htype, hcnt⟩ := Shift.exists_code hrest
  exact ⟨sh, hsel, htype, hcnt⟩

/-- A register check that fails, now or after a register is read, refuses the word as `RegisterNotInScope`. -/
theorem bind_ofCode_of_namesNoRegister {b : BitVec 4} {k : Reg → Except RefuseReason Instr}
    (h : NamesNoRegister b ∨ ∀ r, k r = .error .registerNotInScope) :
    Reg.ofCode b >>= k = .error .registerNotInScope := by
  obtain hb | hk := h
  · rw [Reg.ofCode_of_namesNoRegister hb, error_bind]
  · cases hr : Reg.ofCode b with
    | ok r => exact hk r
    | error e => rw [Reg.ofCode_error hr, error_bind]

theorem decodeReg3_of_namesNoRegister {w : InstrWord}
    (h : NamesNoRegister (fieldRD w) ∨ NamesNoRegister (fieldRS1 w) ∨ NamesNoRegister (fieldRS2 w))
    (mk : Reg → Reg → Reg → Shift → SF → Instr) (sh : Shift) (sf : SF) :
    decodeReg3 mk w sh sf = .error .registerNotInScope :=
  bind_ofCode_of_namesNoRegister <| h.imp_right fun h _ =>
    bind_ofCode_of_namesNoRegister <| h.imp_right fun h _ => bind_ofCode_of_namesNoRegister (.inl h)

theorem decodeRegTest_of_namesNoRegister {w : InstrWord}
    (h : NamesNoRegister (fieldRS1 w) ∨ NamesNoRegister (fieldRS2 w))
    (mk : Reg → Reg → Shift → SF → Instr) (sh : Shift) (sf : SF) :
    decodeRegTest mk w sh sf = .error .registerNotInScope :=
  bind_ofCode_of_namesNoRegister <| h.imp_right fun h _ => bind_ofCode_of_namesNoRegister (.inl h)

theorem decodeRegLoad_of_namesNoRegister {w : InstrWord}
    (h : NamesNoRegister (fieldRD w) ∨ NamesNoRegister (fieldRS2 w)) (sh : Shift) (sf : SF) :
    decodeRegLoad w sh sf = .error .registerNotInScope :=
  bind_ofCode_of_namesNoRegister <| h.imp_right fun h _ => bind_ofCode_of_namesNoRegister (.inl h)

/-- The register fields a word's format and operation use (R35, R40). -/
def usedRegisterFields (f : Format) (op : Op) (w : InstrWord) : List (BitVec 4) :=
  match f, op with
  | .imm, _ | .short, _ => [fieldRD w]
  | .reg, .cmp | .reg, .tsa | .reg, .tsx => [fieldRS1 w, fieldRS2 w]
  | .reg, .load => [fieldRD w, fieldRS2 w]
  | .reg, _ => [fieldRD w, fieldRS1 w, fieldRS2 w]

theorem fieldRD_mem_used {f : Format} {op : Op} (h : ¬ (f = .reg ∧ op.isTest = true)) (w : InstrWord) :
    fieldRD w ∈ usedRegisterFields f op w := by
  cases f with
  | imm | short => simp [usedRegisterFields]
  | reg =>
    cases op with
    | cmp | tsa | tsx => exact absurd ⟨rfl, rfl⟩ h
    | add | adc | sub | sbc | and | orr | xor | load => simp [usedRegisterFields]

theorem fieldRS1_mem_used {op : Op} (h : op ≠ .load) (w : InstrWord) :
    fieldRS1 w ∈ usedRegisterFields .reg op w := by
  cases op with
  | load => exact absurd rfl h
  | add | adc | sub | sbc | and | orr | xor | cmp | tsa | tsx => simp [usedRegisterFields]

theorem fieldRS2_mem_used (op : Op) (w : InstrWord) : fieldRS2 w ∈ usedRegisterFields .reg op w := by
  cases op <;> simp [usedRegisterFields]

/-- One used field of a Register-format word that names no register is enough. -/
theorem decodeReg_of_namesNoRegister {op : Op} {w : InstrWord} {b : BitVec 4}
    (hmem : b ∈ usedRegisterFields .reg op w) (hb : NamesNoRegister b) (sh : Shift) (sf : SF) :
    decodeReg op w sh sf = .error .registerNotInScope := by
  cases op with
  | add | adc | sub | sbc | and | orr | xor =>
    simp only [usedRegisterFields, List.mem_cons, List.not_mem_nil, or_false] at hmem
    refine decodeReg3_of_namesNoRegister ?_ _ sh sf
    obtain rfl | rfl | rfl := hmem
    exacts [.inl hb, .inr (.inl hb), .inr (.inr hb)]
  | cmp | tsa | tsx =>
    simp only [usedRegisterFields, List.mem_cons, List.not_mem_nil, or_false] at hmem
    refine decodeRegTest_of_namesNoRegister ?_ _ sh sf
    obtain rfl | rfl := hmem
    exacts [.inl hb, .inr hb]
  | load =>
    simp only [usedRegisterFields, List.mem_cons, List.not_mem_nil, or_false] at hmem
    refine decodeRegLoad_of_namesNoRegister ?_ sh sf
    obtain rfl | rfl := hmem
    exacts [.inl hb, .inr hb]

theorem decodeFields_short_of_shift {w : InstrWord} {sh : Shift} (h : ShiftFields w sh) (op : Op) (sf : SF) :
    decodeFields .short op w sf =
      Reg.ofCode (fieldRD w) >>= fun r => .ok (.ofShort op r (fieldImm8 w) sh sf) := by
  simp [decodeFields, ofFields_word_eq_ok_iff.mpr h]

theorem decodeFields_reg_of_shift {w : InstrWord} {sh : Shift} (h : ShiftFields w sh) (op : Op) (sf : SF) :
    decodeFields .reg op w sf = decodeReg op w sh sf := by
  simp [decodeFields, ofFields_word_eq_ok_iff.mpr h]

/-- In every format, once the shift fields have passed. -/
theorem AtRegisterChecks.decode_of_namesNoRegister {w : InstrWord} {f : Format} {op : Op} {sf : SF} {b : BitVec 4}
    (h : AtRegisterChecks w f op sf) (hmem : b ∈ usedRegisterFields f op w) (hb : NamesNoRegister b) :
    decode w = .error .registerNotInScope := by
  have hfields : decodeFields f op w sf = .error .registerNotInScope := by
    cases f with
    | imm =>
      obtain rfl := List.mem_singleton.mp hmem
      exact bind_ofCode_of_namesNoRegister (.inl hb)
    | short =>
      obtain ⟨sh, hsh⟩ := h.shift (by decide)
      obtain rfl := List.mem_singleton.mp hmem
      rw [decodeFields_short_of_shift hsh]
      exact bind_ofCode_of_namesNoRegister (.inl hb)
    | reg =>
      obtain ⟨sh, hsh⟩ := h.shift (by decide)
      rw [decodeFields_reg_of_shift hsh]
      exact decodeReg_of_namesNoRegister hmem hb sh sf
  rw [h.decode_eq, hfields, error_bind]

/-- Settles O6: each of the three fields is one of those the word's format and operation use. -/
theorem registerFieldsInScope : Obligations.RegisterFieldsInScope := by
  intro w hpass
  obtain ⟨f, op, sf, h⟩ := exists_atRegisterChecks hpass
  rw [h.opcode, opcodeOf_mem_tests_iff, extract_opcodeOf_eq_three_iff]
  refine ⟨fun hb htest => ?_, fun hb hload hf => ?_, fun hb hf => ?_⟩
  · exact h.decode_of_namesNoRegister (fieldRD_mem_used htest w) hb
  · subst hf
    have hop : op ≠ .load := fun hop => hload (hop ▸ rfl)
    exact h.decode_of_namesNoRegister (fieldRS1_mem_used hop w) hb
  · subst hf
    exact h.decode_of_namesNoRegister (fieldRS2_mem_used op w) hb

/-! ### Unused fields, and R30's refusals -/

theorem decodeRegTest_of_unused {w : InstrWord} (hrS1 : ¬ NamesNoRegister (fieldRS1 w))
    (hrS2 : ¬ NamesNoRegister (fieldRS2 w)) (hrD : fieldRD w ≠ 0#4) (mk : Reg → Reg → Shift → SF → Instr) (sh : Shift)
    (sf : SF) : decodeRegTest mk w sh sf = .error .unusedFieldNonZero := by
  obtain ⟨rS1, hrS1⟩ := Reg.exists_code hrS1
  obtain ⟨rS2, hrS2⟩ := Reg.exists_code hrS2
  simp [decodeRegTest, hrS1, hrS2, hrD]

theorem decodeReg_of_unused_rD {op : Op} {w : InstrWord} (hop : op.isTest = true)
    (hrS1 : ¬ NamesNoRegister (fieldRS1 w)) (hrS2 : ¬ NamesNoRegister (fieldRS2 w)) (hrD : fieldRD w ≠ 0#4) (sh : Shift)
    (sf : SF) : decodeReg op w sh sf = .error .unusedFieldNonZero := by
  cases op with
  | cmp | tsa | tsx => exact decodeRegTest_of_unused hrS1 hrS2 hrD _ sh sf
  | add | adc | sub | sbc | and | orr | xor | load => cases hop

/-- What the last checks on a LOAD register word answer. -/
theorem decodeRegLoad_of_registers {w : InstrWord} {rD rS : Reg} (hrD : fieldRD w = rD.code)
    (hrS : fieldRS2 w = rS.code) (sh : Shift) (sf : SF) :
    decodeRegLoad w sh sf =
      if fieldRS1 w = 0#4 ∧ sh = .noShift then .ok (.loadReg rD rS sh sf) else .error .unusedFieldNonZero := by
  simp [decodeRegLoad, hrD, hrS]

/-- `shtype` tells no shift operand from `LSL #n`. -/
theorem Shift.typeCode_eq_zero_iff {sh : Shift} : sh.typeCode = 0#3 ↔ sh = .noShift := by
  cases sh with
  | noShift => simp [Shift.typeCode]
  | lsl n => simp [Shift.typeCode]

/-- Settles O7: the used fields pass, and the last check of step 5 finds the field that is not 0. -/
theorem unusedFieldsRefused : Obligations.UnusedFieldsRefused := by
  intro w hpass hrS2
  obtain ⟨f, op, sf, h⟩ := exists_atRegisterChecks hpass
  rw [h.opcode, opcodeOf_mem_tests_iff]
  refine ⟨fun ⟨hf, htest⟩ hrS1 hrD => ?_, fun hload hrD hunused => ?_⟩
  · subst hf
    obtain ⟨sh, hsh⟩ := h.shift (by decide)
    rw [h.decode_eq, decodeFields_reg_of_shift hsh, decodeReg_of_unused_rD htest hrS1 hrS2 hrD, error_bind]
  · obtain ⟨rfl, rfl⟩ := opcodeOf_inj (f' := .reg) (op' := .load) |>.mp hload
    obtain ⟨sh, hsh⟩ := h.shift (by decide)
    obtain ⟨rD, hrD⟩ := Reg.exists_code hrD
    obtain ⟨rS, hrS⟩ := Reg.exists_code hrS2
    have hlast : ¬ (fieldRS1 w = 0#4 ∧ sh = .noShift) := by
      rintro ⟨hrS1, rfl⟩
      obtain ⟨hsel, htype, hcnt⟩ := hsh
      simp [hrS1, hsel, htype, hcnt, Shift.typeCode, Shift.count] at hunused
    rw [h.decode_eq, decodeFields_reg_of_shift hsh, decodeReg, decodeRegLoad_of_registers hrD hrS, if_neg hlast, error_bind]

/-- Step 6 on a word whose fields are read. -/
theorem AtRegisterChecks.decode_of_refusal {w : InstrWord} {f : Format} {op : Op} {sf : SF} {i : Instr}
    {e : RefuseReason} (h : AtRegisterChecks w f op sf) (hi : decodeFields f op w sf = .ok i)
    (he : i.refusal = some e) : Sys2Proof.decode w = .error e := by
  rw [h.decode_eq, hi, ok_bind]
  exact checkTerm_eq_error_iff.mpr he

/-- Settles O49: in each of the three cases the fields are read, as an instruction that R30 refuses. -/
theorem shiftFlagsRefusedOnWords : Obligations.ShiftFlagsRefusedOnWords := by
  intro w hpass hsf hrD
  obtain ⟨f, op, sf, h⟩ := exists_atRegisterChecks hpass
  obtain ⟨rD, hrD⟩ := Reg.exists_code hrD
  obtain rfl : sf = .s := SF.code_inj.mp (h.status.symm.trans hsf)
  rw [h.opcode]
  refine ⟨fun h31 => ?_, fun hload => ?_, fun hload hrS2 hrS1 htype => ?_⟩
  · have hf : f = .imm := by
      by_contra hf
      exact Bool.false_ne_true (h31.symm.trans ((getLsbD_31_iff h.opcode).mpr hf))
    subst hf
    exact h.decode_of_refusal (decodeFields_imm_eq_ok_iff.mpr ⟨rD, hrD, rfl⟩) (by simp [Instr.refusal])
  · obtain ⟨rfl, rfl⟩ := opcodeOf_inj (f' := .short) (op' := .load) |>.mp hload
    obtain ⟨sh, hsh⟩ := h.shift (by decide)
    exact h.decode_of_refusal (decodeFields_short_eq_ok_iff.mpr ⟨sh, hsh, rD, hrD, rfl⟩) rfl
  · obtain ⟨rfl, rfl⟩ := opcodeOf_inj (f' := .reg) (op' := .load) |>.mp hload
    obtain ⟨sh, hsh⟩ := h.shift (by decide)
    obtain ⟨rS, hrS⟩ := Reg.exists_code hrS2
    have hno : sh = .noShift := by
      obtain ⟨-, ht, -⟩ := hsh
      exact Shift.typeCode_eq_zero_iff.mp (ht.symm.trans htype)
    refine h.decode_of_refusal (i := .loadReg rD rS sh .s) ?_ rfl
    rw [decodeFields_reg_of_shift hsh, decodeReg, decodeRegLoad_of_registers hrD hrS, if_pos ⟨hrS1, hno⟩]

end Sys2Proof
end

section
/-! The opcode table (`30_encoding.md` R41): what a row asks of a word, field by field. -/

namespace Sys2Proof

/-- Two words are equal if their fields are: the Register layout cuts a word finest. -/
theorem eq_iff_regFields {v w : InstrWord} :
    v = w ↔ fieldOpcode v = fieldOpcode w ∧ fieldRD v = fieldRD w ∧ fieldRS1 v = fieldRS1 w ∧ fieldRS2 v = fieldRS2 w ∧
      fieldShsel v = fieldShsel w ∧ fieldShtype v = fieldShtype w ∧ fieldShcnt v = fieldShcnt w ∧
      fieldSf v = fieldSf w ∧ fieldCond v = fieldCond w := by
  constructor
  · rintro rfl
    exact ⟨rfl, rfl, rfl, rfl, rfl, rfl, rfl, rfl, rfl⟩
  · rintro ⟨hop, hrD, hrS1, hrS2, hsel, htype, hcnt, hsf, hcond⟩
    rw [← append_regFields v, ← append_regFields w, hop, hrD, hrS1, hrS2, hsel, htype, hcnt, hsf, hcond]

/-- The fields of a masked word. -/
theorem and_eq_iff_regFields {w m p : InstrWord} :
    w &&& m = p ↔ fieldOpcode w &&& fieldOpcode m = fieldOpcode p ∧ fieldRD w &&& fieldRD m = fieldRD p ∧
      fieldRS1 w &&& fieldRS1 m = fieldRS1 p ∧ fieldRS2 w &&& fieldRS2 m = fieldRS2 p ∧
      fieldShsel w &&& fieldShsel m = fieldShsel p ∧ fieldShtype w &&& fieldShtype m = fieldShtype p ∧
      fieldShcnt w &&& fieldShcnt m = fieldShcnt p ∧ fieldSf w &&& fieldSf m = fieldSf p ∧
      fieldCond w &&& fieldCond m = fieldCond p := by
  rw [eq_iff_regFields]
  simp only [fieldOpcode, fieldRD, fieldRS1, fieldRS2, fieldShsel, fieldShtype, fieldShcnt, fieldSf, fieldCond,
    BitVec.extractLsb'_and]

/-- The pattern and mask of a row, in the terms of R41. -/
theorem opcodeTable_rows : ∀ row ∈ opcodeTable,
    row.pattern = (opcodeOf row.format row.op).setWidth 32 <<< 26 ∧
    row.mask =
      if row.format = .reg ∧ row.op.isTest then 0xFFC0000F#32
      else if row.format = .reg ∧ row.op = .load then 0xFC3C3FCF#32
      else 0xFC00000F#32 := by
  decide

/-- Every format and operation has a row. -/
theorem exists_row (f : Format) (op : Op) : ∃ row ∈ opcodeTable, row.format = f ∧ row.op = op := by
  cases f <;> cases op <;> decide

theorem opcodeTable_opcodes_ne :
    opcodeTable.Pairwise fun a b => opcodeOf a.format a.op ≠ opcodeOf b.format b.op := by
  decide

/-- The fields of a pattern: the opcode, and 0 in every other place. -/
theorem regFields_pattern : ∀ o : BitVec 6, fieldOpcode (o.setWidth 32 <<< 26) = o ∧
    fieldRD (o.setWidth 32 <<< 26) = 0#4 ∧ fieldRS1 (o.setWidth 32 <<< 26) = 0#4 ∧
    fieldRS2 (o.setWidth 32 <<< 26) = 0#4 ∧ fieldShsel (o.setWidth 32 <<< 26) = 0#1 ∧
    fieldShtype (o.setWidth 32 <<< 26) = 0#3 ∧ fieldShcnt (o.setWidth 32 <<< 26) = 0#4 ∧
    fieldSf (o.setWidth 32 <<< 26) = 0#2 ∧ fieldCond (o.setWidth 32 <<< 26) = 0#4 := by
  decide

/-- The fields of a mask: 1s in the opcode and `cond`, and in the fields its instruction leaves unused (R40). -/
theorem regFields_mask : ∀ row ∈ opcodeTable, fieldOpcode row.mask = BitVec.allOnes 6 ∧
    fieldRD row.mask = (if row.format = .reg ∧ row.op.isTest = true then BitVec.allOnes 4 else 0#4) ∧
    fieldRS1 row.mask = (if row.format = .reg ∧ row.op = .load then BitVec.allOnes 4 else 0#4) ∧
    fieldRS2 row.mask = 0#4 ∧
    fieldShsel row.mask = (if row.format = .reg ∧ row.op = .load then BitVec.allOnes 1 else 0#1) ∧
    fieldShtype row.mask = (if row.format = .reg ∧ row.op = .load then BitVec.allOnes 3 else 0#3) ∧
    fieldShcnt row.mask = (if row.format = .reg ∧ row.op = .load then BitVec.allOnes 4 else 0#4) ∧
    fieldSf row.mask = 0#2 ∧ fieldCond row.mask = BitVec.allOnes 4 := by
  decide

/-- A mask field of 1s or 0s. -/
theorem and_ite_eq_zero_iff {n : Nat} {p : Prop} [Decidable p] {x : BitVec n} :
    x &&& (if p then BitVec.allOnes n else 0#n) = 0#n ↔ (p → x = 0#n) := by
  split <;> simp [*]

/-- The fields that an instruction of the format and operation leaves unused hold 0 (R40). -/
structure UnusedFieldsZero (f : Format) (op : Op) (w : InstrWord) : Prop where
  test : f = .reg ∧ op.isTest = true → fieldRD w = 0#4
  load : f = .reg ∧ op = .load → fieldRS1 w = 0#4 ∧ ShiftFields w .noShift

/-- The words a row selects (R41). -/
theorem matchesWord_iff {row : OpcodeRow} (hrow : row ∈ opcodeTable) (w : InstrWord) :
    row.matchesWord w = true ↔
      fieldOpcode w = opcodeOf row.format row.op ∧ fieldCond w = 0#4 ∧ UnusedFieldsZero row.format row.op w := by
  obtain ⟨m1, m2, m3, m4, m5, m6, m7, m8, m9⟩ := regFields_mask row hrow
  obtain ⟨p1, p2, p3, p4, p5, p6, p7, p8, p9⟩ := regFields_pattern (opcodeOf row.format row.op)
  obtain ⟨hpattern, -⟩ := opcodeTable_rows row hrow
  rw [OpcodeRow.matchesWord, beq_iff_eq, hpattern, and_eq_iff_regFields, m1, m2, m3, m4, m5, m6, m7, m8, m9,
    p1, p2, p3, p4, p5, p6, p7, p8, p9]
  simp only [BitVec.and_allOnes, BitVec.and_zero, and_ite_eq_zero_iff, true_and]
  constructor
  · rintro ⟨hop, hrD, hrS1, hsel, htype, hcnt, hcond⟩
    exact ⟨hop, hcond, hrD, fun hl => ⟨hrS1 hl, hsel hl, htype hl, hcnt hl⟩⟩
  · rintro ⟨hop, hcond, hrD, hload⟩
    simp only [ShiftFields, imp_and] at hload
    obtain ⟨hrS1, hsel, htype, hcnt⟩ := hload
    exact ⟨hop, hrD, hrS1, hsel, htype, hcnt, hcond⟩

theorem unusedFieldsZero_of_ne_reg {f : Format} (h : f ≠ .reg) (op : Op) (w : InstrWord) : UnusedFieldsZero f op w :=
  ⟨fun ⟨hf, _⟩ => absurd hf h, fun ⟨hf, _⟩ => absurd hf h⟩

/-! ### The row of a word that decodes -/

theorem unusedFieldsZero_of_decodeReg {op : Op} {w : InstrWord} {sh : Shift} {sf : SF} {i : Instr}
    (hsh : ShiftFields w sh) (h : decodeReg op w sh sf = .ok i) : UnusedFieldsZero .reg op w := by
  cases op with
  | add | adc | sub | sbc | and | orr | xor => exact ⟨by simp [Op.isTest], by simp⟩
  | cmp | tsa | tsx =>
    obtain ⟨_, -, _, -, hrD, -⟩ := decodeRegTest_eq_ok_iff.mp h
    exact ⟨fun _ => hrD, by simp⟩
  | load =>
    obtain ⟨_, -, _, -, ⟨hrS1, rfl⟩, -⟩ := decodeRegLoad_eq_ok_iff.mp h
    exact ⟨by simp [Op.isTest], fun _ => ⟨hrS1, hsh⟩⟩

/-- The format and operation of the instruction read are those the opcode selects, and the fields it does not use are
0. -/
theorem format_op_of_decodeFields {f : Format} {op : Op} {w : InstrWord} {sf : SF} {i : Instr}
    (h : decodeFields f op w sf = .ok i) : f = i.format ∧ op = i.op ∧ UnusedFieldsZero f op w := by
  cases f with
  | imm =>
    obtain ⟨r, -, rfl⟩ := decodeFields_imm_eq_ok_iff.mp h
    exact ⟨by simp [Instr.format], by simp [Instr.op], unusedFieldsZero_of_ne_reg (by decide) op w⟩
  | short =>
    obtain ⟨sh, -, r, -, rfl⟩ := decodeFields_short_eq_ok_iff.mp h
    exact ⟨by simp [Instr.format], by simp [Instr.op], unusedFieldsZero_of_ne_reg (by decide) op w⟩
  | reg =>
    obtain ⟨sh, hsh, hi⟩ := decodeFields_reg_eq_ok_iff.mp h
    obtain ⟨⟨rD, rS1, rS2, -, hshape⟩, -⟩ := regRead_of_decodeReg hi
    exact ⟨by simp [Instr.format, hshape], by simp [Instr.op, hshape], unusedFieldsZero_of_decodeReg hsh hi⟩

theorem exists_row_of_decode {w : InstrWord} {i : Instr} (h : decode w = .ok i) :
    ∃ row ∈ opcodeTable, row.format = i.format ∧ row.op = i.op ∧ row.matchesWord w = true := by
  obtain ⟨f, op, sf, hop, hcond, -, hi, -⟩ := decode_eq_ok_iff.mp h
  obtain ⟨hformat, hopi, hunused⟩ := format_op_of_decodeFields hi
  obtain ⟨row, hrow, rfl, rfl⟩ := exists_row f op
  exact ⟨row, hrow, hformat, hopi, (matchesWord_iff hrow w).mpr ⟨hop, hcond, hunused⟩⟩

/-- Settles O9: a row selects by the opcode first, which differs from row to row. -/
theorem opcodeTableSelects : Obligations.OpcodeTableSelects := by
  refine ⟨rfl, opcodeTable_rows, fun w i h => exists_row_of_decode h, ?_⟩
  refine opcodeTable_opcodes_ne.imp_of_mem fun {a b} ha hb hne w ⟨hwa, hwb⟩ => hne ?_
  obtain ⟨hopa, -⟩ := (matchesWord_iff ha w).mp hwa
  obtain ⟨hopb, -⟩ := (matchesWord_iff hb w).mp hwb
  exact hopa.symm.trans hopb

end Sys2Proof
end

section
/-! The assembler (`30_encoding.md` R44 to R48): an instruction from its shape, what its statement assembles to, and what
the assembler can emit. -/

namespace Sys2Proof.Machine

/-! ### An instruction from its shape -/

theorem eq_ofImm_of_shape {i : Instr} {op : Op} {r : Reg} {k : Word} {sf : SF} (h : i.shape = .imm op r k sf) :
    i = .ofImm op r k sf := by
  cases i <;> cases h <;> rfl

theorem eq_ofShort_of_shape {i : Instr} {op : Op} {r : Reg} {k : Byte} {sh : Shift} {sf : SF}
    (h : i.shape = .short op r k sh sf) : i = .ofShort op r k sh sf := by
  cases i <;> cases h <;> rfl

/-- The Register-format instructions: three operands, the two of a test operation, or the two of LOAD (R40, R48). -/
inductive RegForm (i : Instr) (op : Op) (rD rS1 : Option Reg) (rS2 : Reg) (sh : Shift) (sf : SF) : Prop
  | three (d a : Reg) (hD : rD = some d) (hS1 : rS1 = some a) (h : Instr.ofReg3 op d a rS2 sh sf = some i)
  | test (a : Reg) (hD : rD = none) (hS1 : rS1 = some a) (h : Instr.ofReg2 op a rS2 sh sf = some i)
  | load (d : Reg) (hD : rD = some d) (hS1 : rS1 = none) (hop : op = .load) (h : i = .loadReg d rS2 sh sf)

theorem regForm_of_shape {i : Instr} {op : Op} {rD rS1 : Option Reg} {rS2 : Reg} {sh : Shift} {sf : SF}
    (h : i.shape = .reg op rD rS1 rS2 sh sf) : RegForm i op rD rS1 rS2 sh sf :=
  match i, h with
  | .addReg .., rfl | .adcReg .., rfl | .subReg .., rfl | .sbcReg .., rfl | .andReg .., rfl | .orrReg .., rfl
  | .xorReg .., rfl => .three _ _ rfl rfl rfl
  | .cmpReg .., rfl | .tsaReg .., rfl | .tsxReg .., rfl => .test _ rfl rfl rfl
  | .loadReg .., rfl => .load _ rfl rfl rfl rfl

theorem shape_of_ofReg3 {op : Op} {rD rS1 rS2 : Reg} {sh : Shift} {sf : SF} {i : Instr}
    (h : Instr.ofReg3 op rD rS1 rS2 sh sf = some i) :
    op ≠ .load ∧ i.shape = .reg op (some rD) (some rS1) rS2 sh sf := by
  cases op with
  | add | adc | sub | sbc | and | orr | xor =>
    cases h
    exact ⟨by decide, rfl⟩
  | load | cmp | tsa | tsx => cases h

theorem shape_of_ofReg2 {op : Op} {rS1 rS2 : Reg} {sh : Shift} {sf : SF} {i : Instr}
    (h : Instr.ofReg2 op rS1 rS2 sh sf = some i) : op ≠ .load ∧ i.shape = .reg op none (some rS1) rS2 sh sf := by
  cases op with
  | cmp | tsa | tsx =>
    cases h
    exact ⟨by decide, rfl⟩
  | add | adc | sub | sbc | and | orr | xor | load => cases h

theorem eq_loadReg_of_shape {i : Instr} {rD rS1 : Option Reg} {rS2 : Reg} {sh : Shift} {sf : SF}
    (h : i.shape = .reg .load rD rS1 rS2 sh sf) : ∃ d, i = .loadReg d rS2 sh sf := by
  cases regForm_of_shape h with
  | three d a _ _ h => cases h
  | test a _ _ h => cases h
  | load d _ _ _ h => exact ⟨d, h⟩

/-! ### What a statement assembles to -/

theorem assemble_immForm (op : Op) (sf : SF) (r : Reg) (c : Int) :
    assemble ⟨immMnemonic op, sf, [.reg r, .imm c]⟩ = assembleImm op r c sf := by
  cases op <;> rfl

theorem assemble_shortForm (op : Op) (sf : SF) (r : Reg) (c : Int) (n : Nat) :
    assemble ⟨immMnemonic op, sf, [.reg r, .imm c, .lsl n]⟩ = assembleShort op r c n sf := by
  cases op <;> rfl

theorem assemble_regForm {op : Op} (h : op ≠ .load) (sf : SF) (operands : List Operand) :
    assemble ⟨regMnemonic op, sf, operands⟩ = assembleReg op operands sf := by
  simp [regMnemonic, h, assemble]

theorem assembleReg_three {op : Op} {rD rS1 rS2 : Reg} {sh : Shift} {sf : SF} {i : Instr}
    (h : Instr.ofReg3 op rD rS1 rS2 sh sf = some i) :
    assembleReg op ([.reg rD, .reg rS1, .reg rS2] ++ Shift.operands sh) sf = .ok i := by
  simp [assembleReg, h]

theorem assembleReg_two {op : Op} {rS1 rS2 : Reg} {sh : Shift} {sf : SF} {i : Instr}
    (h : Instr.ofReg2 op rS1 rS2 sh sf = some i) :
    assembleReg op ([.reg rS1, .reg rS2] ++ Shift.operands sh) sf = .ok i := by
  have hsh := shiftOperand_operands sh
  cases sh with
  | noShift => simp [assembleReg, Shift.operands, shiftOperand, h]
  | lsl n =>
    simp only [Shift.operands] at hsh
    simp [assembleReg, Shift.operands, hsh, h]

/-- A Register-format instruction with a spelling is what its operands assemble to. -/
theorem assemble_of_regForm {i : Instr} {op : Op} {rD rS1 : Option Reg} {rS2 : Reg} {sh : Shift} {sf : SF}
    (h : RegForm i op rD rS1 rS2 sh sf) (hsh : ¬ (op = .load ∧ sh ≠ .noShift)) :
    assemble ⟨regMnemonic op, sf, (rD.toList ++ rS1.toList ++ [rS2]).map .reg ++ Shift.operands sh⟩ = .ok i := by
  cases h with
  | three d a hD hS1 h =>
    subst hD hS1
    rw [assemble_regForm (shape_of_ofReg3 h).1]
    exact assembleReg_three h
  | test a hD hS1 h =>
    subst hD hS1
    rw [assemble_regForm (shape_of_ofReg2 h).1]
    exact assembleReg_two h
  | load d hD hS1 hop h =>
    subst hD hS1 hop h
    obtain rfl : sh = .noShift := by_contra fun hne => hsh ⟨rfl, hne⟩
    rfl

theorem assemble_statementOf {i : Instr} {st : Statement} (h : statementOf i = some st) : assemble st = .ok i := by
  unfold statementOf at h
  cases hs : i.shape with
  | imm op r k sf =>
    simp only [hs, Option.some.injEq] at h
    rw [← h, assemble_immForm, assembleImm_toNat, eq_ofImm_of_shape hs]
  | short op r k sh sf =>
    cases sh with
    | noShift => simp [hs] at h
    | lsl n =>
      simp only [hs, Option.some.injEq] at h
      rw [← h, assemble_shortForm, assembleShort_toNat, eq_ofShort_of_shape hs]
  | reg op rD rS1 rS2 sh sf =>
    simp only [hs, Option.ite_none_left_eq_some, Option.some.injEq] at h
    obtain ⟨hsh, rfl⟩ := h
    exact assemble_of_regForm (regForm_of_shape hs) hsh

/-- The two kinds of instruction that have no spelling (R47, R48). -/
theorem statementOf_eq_none_iff {i : Instr} :
    statementOf i = none ↔
      (∃ op r k sf, i.shape = .short op r k .noShift sf) ∨ ∃ rD rS n sf, i = .loadReg rD rS (.lsl n) sf := by
  constructor
  · intro h
    unfold statementOf at h
    cases hs : i.shape with
    | imm op r k sf => simp [hs] at h
    | short op r k sh sf =>
      cases sh with
      | noShift => exact .inl ⟨op, r, k, sf, rfl⟩
      | lsl n => simp [hs] at h
    | reg op rD rS1 rS2 sh sf =>
      simp only [hs, ite_eq_left_iff, reduceCtorEq, imp_false, not_not] at h
      obtain ⟨rfl, hsh⟩ := h
      cases sh with
      | noShift => exact absurd rfl hsh
      | lsl n =>
        obtain ⟨d, hi⟩ := eq_loadReg_of_shape hs
        exact .inr ⟨d, rS2, n, sf, hi⟩
  · rintro (⟨op, r, k, sf, hs⟩ | ⟨rD, rS, n, sf, rfl⟩)
    · simp [statementOf, hs]
    · simp [statementOf, Instr.shape]

/-- Settles O10, by the instruction's shape. -/
theorem assembleOfStatement : Obligations.AssembleOfStatement :=
  fun _ => ⟨fun _ => assemble_statementOf, statementOf_eq_none_iff⟩

/-! ### What the assembler can emit -/

/-- The instructions some statement assembles to (R47, R48), by their shape. -/
inductive Emitted (i : Instr) : Prop
  | imm (op : Op) (r : Reg) (k : Word) (sf : SF) (h : i.shape = .imm op r k sf)
  | short (op : Op) (r : Reg) (k : Byte) (n : BitVec 4) (sf : SF) (h : i.shape = .short op r k (.lsl n) sf)
  | load (rD rS : Reg) (sf : SF) (h : i.shape = .reg .load (some rD) none rS .noShift sf)
  | reg (op : Op) (rD rS1 : Option Reg) (rS2 : Reg) (sh : Shift) (sf : SF) (hop : op ≠ .load)
      (h : i.shape = .reg op rD rS1 rS2 sh sf)

theorem emitted_of_assembleImm {op : Op} {r : Reg} {c : Int} {sf : SF} {i : Instr}
    (h : assembleImm op r c sf = .ok i) : Emitted i := by
  unfold assembleImm at h
  split at h <;> cases h
  exact .imm op r _ sf (Instr.shape_ofImm ..)

theorem emitted_of_assembleShort {op : Op} {r : Reg} {c : Int} {n : Nat} {sf : SF} {i : Instr}
    (h : assembleShort op r c n sf = .ok i) : Emitted i := by
  unfold assembleShort at h
  split at h <;> cases h
  exact .short op r _ _ sf (Instr.shape_ofShort ..)

theorem emitted_of_assembleReg {op : Op} {operands : List Operand} {sf : SF} {i : Instr}
    (h : assembleReg op operands sf = .ok i) : Emitted i := by
  unfold assembleReg at h
  split at h
  · obtain ⟨sh, -, h⟩ := bind_eq_ok_iff.mp h
    split at h <;> cases h
    case h_1 hi =>
      obtain ⟨hop, hshape⟩ := shape_of_ofReg3 hi
      exact .reg _ _ _ _ _ _ hop hshape
  · obtain ⟨sh, -, h⟩ := bind_eq_ok_iff.mp h
    split at h <;> cases h
    case h_1 hi =>
      obtain ⟨hop, hshape⟩ := shape_of_ofReg2 hi
      exact .reg _ _ _ _ _ _ hop hshape
  · cases h

theorem emitted_of_assemble {st : Statement} {i : Instr} (h : assemble st = .ok i) : Emitted i := by
  unfold assemble at h
  split at h
  · exact emitted_of_assembleImm h
  · exact emitted_of_assembleShort h
  · cases h
  · exact emitted_of_assembleImm h
  · exact emitted_of_assembleShort h
  · cases h
    exact .load _ _ _ rfl
  · cases h
  · exact emitted_of_assembleReg h

/-- Settles O11, by the form of the statement: an emitted instruction has one of four shapes, and these two are none of
them. -/
theorem assemblerNeverEmits : Obligations.AssemblerNeverEmits := by
  intro st i h
  refine ⟨fun op r k sf hs => ?_, fun rD rS n sf hi => ?_⟩
  · cases emitted_of_assemble h with
    | imm _ _ _ _ h | short _ _ _ _ _ h | load _ _ _ h | reg _ _ _ _ _ _ _ h => cases hs.symm.trans h
  · subst hi
    cases emitted_of_assemble h with
    | imm _ _ _ _ h | short _ _ _ _ _ h | load _ _ _ h => cases h
    | reg _ _ _ _ _ _ hop h =>
      cases h
      exact hop rfl

end Sys2Proof.Machine
end

section
/-! R30's refusals as the meanings give them, the idioms of R49, and the words of `95_test_vectors.md` section 6.1. -/

namespace Sys2Proof.Machine

/-! ### R30's table -/

/-- An instruction is refused exactly if R30 refuses it, and then with R30's reason. -/
theorem exec_eq_refused_iff {i : Instr} {s : State} {x : Refusal} :
    exec i s = .refused x ↔ ∃ r, i.refusal = some r ∧ x = .refuse r := by
  cases exec_meaning i with
  | refused r hr exec_eq => simp [exec_eq, hr, refuse, eq_comm]
  | load rD v admitted _ _ _ exec_eq => simp [exec_eq, admitted]
  | alu f rS1 sh b admitted _ _ exec_eq => simp [exec_eq, admitted]

theorem exec_eq_refuse_iff {i : Instr} {s : State} {r : RefuseReason} :
    exec i s = .refused (.refuse r) ↔ i.refusal = some r := by
  simp [exec_eq_refused_iff]

theorem refusal_eq_immFormatHasNoShifter_iff (i : Instr) :
    i.refusal = some .immFormatHasNoShifter ↔ i.format = .imm ∧ i.sf = .s := by
  cases hs : i.shape with
  | imm op r k sf => simp [Instr.refusal, Instr.format, Instr.sf, hs]
  | short op r k sh sf => simp [Instr.refusal, Instr.format, hs]
  | reg op rD rS1 rS2 sh sf => simp [Instr.refusal, Instr.format, hs, ite_eq_iff]

theorem refusal_eq_loadShiftFlagsNotInSource_iff (i : Instr) :
    i.refusal = some .loadShiftFlagsNotInSource ↔ i.format ≠ .imm ∧ i.op = .load ∧ i.sf = .s := by
  cases hs : i.shape with
  | imm op r k sf => simp [Instr.refusal, Instr.format, hs]
  | short op r k sh sf => simp [Instr.refusal, Instr.format, Instr.op, Instr.sf, hs]
  | reg op rD rS1 rS2 sh sf => simp [Instr.refusal, Instr.format, Instr.op, Instr.sf, hs, ite_eq_iff]

theorem refusal_eq_loadRegShiftNotInSource_iff (i : Instr) :
    i.refusal = some .loadRegShiftNotInSource ↔
      ∃ rD rS n, i = .loadReg rD rS (.lsl n) .a ∨ i = .loadReg rD rS (.lsl n) .n := by
  constructor
  · intro h
    cases hs : i.shape with
    | imm op r k sf => simp [Instr.refusal, hs] at h
    | short op r k sh sf => simp [Instr.refusal, hs] at h
    | reg op rD rS1 rS2 sh sf =>
      obtain ⟨hsf, rfl, hsh⟩ : ¬ (op = .load ∧ sf = .s) ∧ op = .load ∧ sh ≠ .noShift := by
        simpa [Instr.refusal, hs, ite_eq_iff] using h
      cases sh with
      | noShift => exact absurd rfl hsh
      | lsl n =>
        obtain ⟨d, rfl⟩ := eq_loadReg_of_shape hs
        cases sf with
        | s => exact absurd ⟨rfl, rfl⟩ hsf
        | a => exact ⟨d, rS2, n, .inl rfl⟩
        | n => exact ⟨d, rS2, n, .inr rfl⟩
  · rintro ⟨rD, rS, n, rfl | rfl⟩ <;> rfl

/-- Settles O37: a meaning refuses what R30's table refuses, row by row. -/
theorem refusedCombinations : Obligations.RefusedCombinations := by
  intro i s
  refine ⟨?_, ?_, ?_, ?_⟩
  · rw [exec_eq_refuse_iff, refusal_eq_immFormatHasNoShifter_iff]
  · rw [exec_eq_refuse_iff, refusal_eq_loadShiftFlagsNotInSource_iff]
  · rw [exec_eq_refuse_iff, refusal_eq_loadRegShiftNotInSource_iff]
  · simp [exec_eq_refused_iff, Option.ne_none_iff_exists', exists_comm]

/-! ### The idioms (R49) -/

/-- R54's sum as the sum of 16-bit values. -/
theorem addC_result (a b : Word) (cin : Bool) : (addC a b cin).result = a + b + BitVec.ofNat 16 cin.toNat := by
  have hsum : (addC a b cin).result = BitVec.ofInt 16 (a.toNat + b.toNat + cin.toNat) := by simp [addC, trunc16]
  rw [hsum, BitVec.ofInt_add, BitVec.ofInt_add]
  simp

/-- R55's difference as the difference of 16-bit values. -/
theorem subB_result (a b : Word) (bin : Bool) : (subB a b bin).result = a - b - BitVec.ofNat 16 bin.toNat := by
  have hdiff : (subB a b bin).result = BitVec.ofInt 16 (a.toNat - b.toNat - bin.toNat) := by simp [subB, trunc16]
  have hsum : BitVec.ofInt 16 (a.toNat - b.toNat - bin.toNat) + BitVec.ofInt 16 bin.toNat + BitVec.ofInt 16 b.toNat =
      BitVec.ofInt 16 a.toNat := by
    rw [← BitVec.ofInt_add, ← BitVec.ofInt_add]
    congr 1
    omega
  rw [hdiff, eq_sub_iff_add_eq, eq_sub_iff_add_eq]
  simpa using hsum

@[simp] theorem aluAdd_result (a b : Word) (c : Bool) : (aluAdd a b c).result = a + b := by
  simp [aluAdd, addC_result]

@[simp] theorem aluAdc_result (a b : Word) (c : Bool) : (aluAdc a b c).result = a + b + BitVec.ofNat 16 c.toNat :=
  addC_result a b c

@[simp] theorem aluSub_result (a b : Word) (c : Bool) : (aluSub a b c).result = a - b := by
  simp [aluSub, subB_result]

@[simp] theorem aluAnd_result (a b : Word) (c : Bool) : (aluAnd a b c).result = a &&& b := rfl

@[simp] theorem aluXor_result (a b : Word) (c : Bool) : (aluXor a b c).result = a ^^^ b := rfl

@[simp] theorem shifted_noShift (v : Word) : shifted v .noShift = v := rfl

@[simp] theorem shifted_lsl (v : Word) (n : BitVec 4) : shifted v (.lsl n) = v <<< n.toNat :=
  lsl16_eq_shiftLeft v n

@[simp] theorem immOperand_eq (k : Word) : immOperand k = k := rfl

@[simp] theorem shortOperand_zero : shortOperand 0#8 = 0#16 := rfl

/-- Adding 0 leaves no carry. -/
theorem aluAdd_zero_carry (a : Word) (c : Bool) : (aluAdd a 0#16 c).carry = false := by
  have ha := a.isLt
  simp only [aluAdd, addC, bitVal_eq_toNat, Bool.toNat_false, BitVec.toNat_ofNat, decide_eq_false_iff_not]
  omega

/-- Adding 0 leaves a value that a 16-bit register holds. -/
theorem aluAdd_zero_overflow (a : Word) (c : Bool) : (aluAdd a 0#16 c).overflow = false := by
  have hlow := BitVec.le_toInt a
  have hhigh := BitVec.toInt_lt (x := a)
  rw [Bool.eq_false_iff, Ne]
  simp only [aluAdd, addC, signedOverflow_iff, sval_eq_toInt, bitVal_eq_toNat, Bool.toNat_false, BitVec.toInt_zero]
  omega

/-- `ADDI rD, #0` reports the register it leaves unchanged. -/
theorem flagsReport_aluAdd_zero (d : Option Reg) (a : Word) (s : State) :
    FlagsReport (aluStep aluAdd d a .noShift 0#16 .a s) a False False where
  n := by simp [updateFlags, flagsFromAlu, BitVec.msb_eq_getLsbD_last]
  z := by simp [updateFlags, flagsFromAlu]
  c := by simp [updateFlags, flagsFromAlu, aluAdd_zero_carry]
  v := by simp [updateFlags, flagsFromAlu, aluAdd_zero_overflow]

theorem shiftLeft_one_add_self (v : Word) : v <<< 1 + v = 3#16 * v := by
  bv_omega

/-- The mask of all ones inverts. -/
theorem xor_ones (v : Word) : v ^^^ 0xFFFF#16 = ~~~v :=
  BitVec.xor_allOnes

/-- `ADCI rD, #0` adds 1 exactly if C is set. -/
theorem add_ofNat_carry (v : Word) (c : Bool) : v + BitVec.ofNat 16 c.toNat = if c then v + 1#16 else v := by
  cases c <;> simp

/-- Settles O32: each idiom is one of the meanings of `exec`, with a result of 16-bit arithmetic in `rD`. -/
theorem idioms : Obligations.Idioms := by
  intro rD rS n s
  refine ⟨⟨_, rfl, ?invert⟩, ⟨_, rfl, ?clearSub⟩, ⟨_, rfl, ?clearLoad⟩, ⟨_, rfl, ?clearAnd⟩, ⟨_, rfl, ?shiftLeft⟩,
    ⟨_, rfl, ?test, ?testFlags⟩, ⟨_, rfl, ?copy⟩, ⟨_, rfl, ?increment⟩, ⟨_, rfl, ?decrement⟩, ⟨_, rfl, ?addCarry⟩,
    ⟨_, rfl, ?timesThree⟩⟩
  case invert => simp [xor_ones]
  case clearSub => simp
  case clearLoad => simp
  case clearAnd => simp
  case shiftLeft => simp
  case test => simp
  case testFlags => exact flagsReport_aluAdd_zero ..
  case copy => simp
  case increment => simp
  case decrement => simp
  case addCarry => simp [add_ofNat_carry]
  case timesThree => simp [shiftLeft_one_add_self]

/-! ### The words of the test vectors -/

/-- A word that is the word of an admitted instruction decodes to it. -/
theorem decode_of_encode_eq {i : Instr} {w : InstrWord} (hw : encode i = w) (h : i.WellFormed) : decode w = .ok i :=
  hw ▸ decodeOfEncode i h

/-- Settles O3: each of the ten words is the word of the admitted instruction named. -/
theorem decodeSampleWords : Obligations.DecodeSampleWords := by
  refine ⟨?_, ?_, ?_, ?_, ?_, ?_, ?_, ?_, ?_, ?_⟩ <;> exact decode_of_encode_eq (by decide) rfl

end Sys2Proof.Machine
end

section
/-! The statements of `40_common_alu.md` about the shifter and the ALU (R51 to R56), multi-precision arithmetic, and the
flags of CMP. -/

namespace Sys2Proof.Machine

/-! ### The shifter (R51, R52) and the logical operations (R56, R57) -/

/-- Settles O12: `LSL16` is the left shift of bit vectors, of which the library knows the number and the bits. -/
theorem shiftedBits : Obligations.ShiftedBits := by
  intro v n
  rw [lsl16_eq_shiftLeft]
  refine ⟨?_, fun k hk => ?_, by simp [lsl16_eq_shiftLeft], rfl, lsl16_eq_shiftLeft v n⟩
  · rw [BitVec.toNat_shiftLeft, Nat.shiftLeft_eq]
  · rw [BitVec.getLsbD_shiftLeft, decide_eq_true hk, Bool.true_and, ← decide_not]
    simp only [Nat.not_lt]

/-- Settles O15: each operation is the library's bitwise one, and reports C and V as `logical` does. -/
theorem logicalBits : Obligations.LogicalBits := by
  intro a b c
  refine ⟨fun k => ?_, fun k => ?_, fun k => ?_, fun f hf => ?_⟩
  · exact BitVec.getLsbD_and
  · exact BitVec.getLsbD_or
  · exact BitVec.getLsbD_xor
  · simp only [List.mem_cons, List.not_mem_nil, or_false] at hf
    obtain rfl | rfl | rfl := hf <;> exact ⟨rfl, rfl⟩

/-! ### A word as a number -/

/-- Bit 15 is the sign. -/
theorem getLsbD_15_eq (v : Word) : v.getLsbD 15 = decide (32768 ≤ v.toNat) := by
  rw [← BitVec.msb_eq_getLsbD_last v, BitVec.msb_eq_decide]

/-- The signed reading of a word, as arithmetic on its number (`00_scope.md` R7). -/
theorem toInt_eq_toNat (v : Word) : v.toInt = if v.toNat < 32768 then (v.toNat : Int) else v.toNat - 65536 := by
  rw [← sval_eq_toInt, sval]

/-- Two words put together as one number: the high word counts 65536 times. -/
theorem toNat_append_word (h l : Word) : (h ++ l : BitVec 32).toNat = 65536 * h.toNat + l.toNat := by
  rw [BitVec.toNat_append, ← Nat.shiftLeft_add_eq_or_of_lt l.isLt, Nat.shiftLeft_eq]
  omega

/-- Two words put together as one signed number: the high word has the sign. -/
theorem toInt_append_word (h l : Word) : (h ++ l : BitVec 32).toInt = 65536 * h.toInt + l.toNat := by
  rw [BitVec.toInt_eq_toNat_cond, toNat_append_word, toInt_eq_toNat]
  have := l.isLt
  split <;> split <;> omega

/-! ### Addition (R54) -/

theorem addC_carry_iff (a b : Word) (cin : Bool) :
    (addC a b cin).carry = true ↔ 65536 ≤ a.toNat + b.toNat + cin.toNat := by
  simp [addC]

theorem addC_overflow_iff (a b : Word) (cin : Bool) :
    (addC a b cin).overflow = true ↔ OutsideSigned (a.toInt + b.toInt + cin.toNat) := by
  simp [addC, sval_eq_toInt, OutsideSigned]

/-- The result and the carry together are the exact sum. -/
theorem addC_toNat (a b : Word) (cin : Bool) :
    (addC a b cin).result.toNat + 65536 * (addC a b cin).carry.toNat = a.toNat + b.toNat + cin.toNat := by
  have ha := a.isLt
  have hb := b.isLt
  have hcin := cin.toNat_le
  have hcarry := addC_carry_iff a b cin
  rw [addC_result, BitVec.toNat_add, BitVec.toNat_add, BitVec.toNat_ofNat]
  by_cases hsum : 65536 ≤ a.toNat + b.toNat + cin.toNat
  · rw [hcarry.mpr hsum, Bool.toNat_true]
    omega
  · rw [Bool.eq_false_iff.mpr (mt hcarry.mp hsum), Bool.toNat_false]
    omega

/-- R54's second form: the overflow is a result whose sign is that of neither operand. -/
theorem addC_overflow_iff_sign (a b : Word) (cin : Bool) :
    (addC a b cin).overflow = true ↔
      a.getLsbD 15 = b.getLsbD 15 ∧ (addC a b cin).result.getLsbD 15 ≠ a.getLsbD 15 := by
  have hsum := addC_toNat a b cin
  have ha := a.isLt
  have hb := b.isLt
  have hr := (addC a b cin).result.isLt
  have hcin := cin.toNat_le
  have hcarry := (addC a b cin).carry.toNat_le
  rw [addC_overflow_iff, OutsideSigned, toInt_eq_toNat a, toInt_eq_toNat b]
  simp only [getLsbD_15_eq, ne_eq, decide_eq_decide]
  split <;> split <;> omega

/-- Settles O13, clause by clause. -/
theorem addWithCarry : Obligations.AddWithCarry := fun a b cin =>
  ⟨addC_result a b cin, addC_carry_iff a b cin, addC_overflow_iff a b cin, addC_overflow_iff_sign a b cin, rfl, rfl⟩

/-! ### Subtraction (R55) -/

theorem toInt_not_word (v : Word) : (~~~v).toInt = -1 - v.toInt := by
  rw [toInt_eq_toNat, toInt_eq_toNat, BitVec.toNat_not]
  have := v.isLt
  split <;> split <;> omega

theorem subB_carry_iff (a b : Word) (bin : Bool) :
    (subB a b bin).carry = true ↔ b.toNat + bin.toNat ≤ a.toNat := by
  simp only [subB, bitVal_eq_toNat, Bool.not_eq_true', decide_eq_false_iff_not]
  omega

theorem subB_overflow_iff (a b : Word) (bin : Bool) :
    (subB a b bin).overflow = true ↔ OutsideSigned (a.toInt - b.toInt - bin.toNat) := by
  simp [subB, sval_eq_toInt, OutsideSigned]

/-- R55's law: subtracting is adding the complement, with the inverse of the borrow as carry. -/
theorem subB_eq_addC_not (a b : Word) (bin : Bool) : subB a b bin = addC a (~~~b) (!bin) := by
  have hbin : ((!bin).toNat : Int) = 1 - bin.toNat := by cases bin <;> rfl
  have hb := b.isLt
  have hresult : (subB a b bin).result = (addC a (~~~b) (!bin)).result := by
    rw [subB_result, addC_result]
    cases bin with
    | false => simp only [Bool.toNat_false, Bool.not_false, Bool.toNat_true]; bv_omega
    | true => simp only [Bool.toNat_false, Bool.not_true, Bool.toNat_true]; bv_omega
  have hcarry : (subB a b bin).carry = (addC a (~~~b) (!bin)).carry := by
    rw [Bool.eq_iff_iff, subB_carry_iff, addC_carry_iff, BitVec.toNat_not]
    omega
  have hoverflow : (subB a b bin).overflow = (addC a (~~~b) (!bin)).overflow := by
    rw [Bool.eq_iff_iff, subB_overflow_iff, addC_overflow_iff, toInt_not_word, hbin, OutsideSigned, OutsideSigned]
    omega
  calc subB a b bin = ⟨(subB a b bin).result, (subB a b bin).carry, (subB a b bin).overflow⟩ := rfl
    _ = addC a (~~~b) (!bin) := by rw [hresult, hcarry, hoverflow]

/-- R55's second form: the operands differ in sign, and the result has not the sign of the first. -/
theorem subB_overflow_iff_sign (a b : Word) (bin : Bool) :
    (subB a b bin).overflow = true ↔
      a.getLsbD 15 ≠ b.getLsbD 15 ∧ (subB a b bin).result.getLsbD 15 ≠ a.getLsbD 15 := by
  have hnot : (~~~b).getLsbD 15 = !b.getLsbD 15 := by simp
  rw [subB_eq_addC_not, addC_overflow_iff_sign, hnot, ne_eq, ← Bool.eq_not]

/-- Settles O14, clause by clause. -/
theorem subtractWithBorrow : Obligations.SubtractWithBorrow := by
  intro a b bin
  refine ⟨subB_result a b bin, ?_, subB_overflow_iff a b bin, subB_overflow_iff_sign a b bin, ?_, rfl, rfl⟩
  · rw [subB_carry_iff, Nat.not_lt]
  · rw [xor_ones]
    exact subB_eq_addC_not a b bin

/-! ### Two words (R75, R81) -/

/-- Two chained `AddC` add 32-bit values with a carry in: the sum, its carry out of bit 31 and its signed overflow. -/
theorem addC_chain (ah al bh bl : Word) (cin : Bool) :
    let lo := addC al bl cin
    let hi := addC ah bh lo.carry
    hi.result ++ lo.result = (ah ++ al : BitVec 32) + (bh ++ bl) + BitVec.ofNat 32 cin.toNat ∧
    (hi.carry = true ↔ 2 ^ 32 ≤ (ah ++ al : BitVec 32).toNat + (bh ++ bl : BitVec 32).toNat + cin.toNat) ∧
    (hi.overflow = true ↔
      (ah ++ al : BitVec 32).toInt + (bh ++ bl : BitVec 32).toInt + cin.toNat < -2 ^ 31 ∨
      2 ^ 31 ≤ (ah ++ al : BitVec 32).toInt + (bh ++ bl : BitVec 32).toInt + cin.toNat) := by
  intro lo hi
  have hlo : lo.result.toNat + 65536 * lo.carry.toNat = al.toNat + bl.toNat + cin.toNat := addC_toNat ..
  have hhi : hi.result.toNat + 65536 * hi.carry.toNat = ah.toNat + bh.toNat + lo.carry.toNat := addC_toNat ..
  have hcarry : hi.carry = true ↔ 65536 ≤ ah.toNat + bh.toNat + lo.carry.toNat := addC_carry_iff ..
  have hoverflow : hi.overflow = true ↔ OutsideSigned (ah.toInt + bh.toInt + lo.carry.toNat) := addC_overflow_iff ..
  have hlo_lt := lo.result.isLt
  have hhi_lt := hi.result.isLt
  refine ⟨BitVec.eq_of_toNat_eq ?_, ?_, ?_⟩
  · simp only [BitVec.toNat_add, BitVec.toNat_ofNat, toNat_append_word]
    omega
  · rw [hcarry, toNat_append_word, toNat_append_word]
    omega
  · rw [hoverflow, OutsideSigned, toInt_append_word, toInt_append_word]
    omega

/-- Settles O16: the chain without a carry in. -/
theorem carryChainAdds32 : Obligations.CarryChainAdds32 := by
  intro ah al bh bl
  simpa using addC_chain ah al bh bl false

/-- Settles O17: by R55's law the borrow chain is the carry chain on the complement, with a carry in of 1. -/
theorem borrowChainSubtracts32 : Obligations.BorrowChainSubtracts32 := by
  intro ah al bh bl lo hi a b
  have hlo : lo = addC al (~~~bl) true := subB_eq_addC_not ..
  have hhi : hi = addC ah (~~~bh) (addC al (~~~bl) true).carry := by
    rw [← hlo, ← Bool.not_not lo.carry]
    exact subB_eq_addC_not ..
  obtain ⟨hresult, hcarry, hoverflow⟩ := addC_chain ah al (~~~bh) (~~~bl) true
  rw [← hhi] at hresult hcarry hoverflow
  rw [← hlo] at hresult
  refine ⟨hresult.trans ?_, hcarry.trans ?_, hoverflow.trans ?_⟩
  · rw [← BitVec.not_append, add_assoc, BitVec.sub_eq_add_neg, BitVec.neg_eq_not_add]
    rfl
  · have hbh := bh.isLt
    have hbl := bl.isLt
    simp only [a, b, toNat_append_word, BitVec.toNat_not, Bool.toNat_true]
    omega
  · have hbl := bl.isLt
    simp only [a, b, toInt_append_word, toInt_not_word, BitVec.toNat_not, Bool.toNat_true]
    omega

/-! ### Comparison (the CMP introduction of `44_test_compare.md`) -/

/-- N and V of a difference agree exactly if it is not negative: the sign of the result is wrong exactly if there is an
overflow. -/
theorem subB_sign_eq_overflow_iff (a b : Word) :
    (subB a b false).result.msb = (subB a b false).overflow ↔ b.toInt ≤ a.toInt := by
  have hresult : (subB a b false).result = a - b := by simp [subB_result]
  have ha := BitVec.le_toInt a
  have ha' := BitVec.toInt_lt (x := a)
  have hb := BitVec.le_toInt b
  have hb' := BitVec.toInt_lt (x := b)
  rw [Bool.eq_iff_iff, subB_overflow_iff, hresult, BitVec.msb_eq_toInt, decide_eq_true_iff, BitVec.toInt_sub,
    Int.bmod_def, OutsideSigned, Bool.toNat_false]
  split <;> omega

/-- What the flags of CMP say of its operands. -/
structure ComparesAs (t : State) (a b : Word) : Prop where
  z : t.sr.z = true ↔ a = b
  c : t.sr.c = true ↔ b.toNat ≤ a.toNat
  sign : t.sr.n = t.sr.v ↔ b.toInt ≤ a.toInt

/-- The flags that the common shape of R61 writes for a subtraction without a shift. -/
theorem aluStep_sub_compares (a b : Word) (s : State) : ComparesAs (aluStep aluSub none a .noShift b .a s) a b where
  z := by simpa [updateFlags, flagsFromAlu] using sub_eq_zero (a := a) (b := b)
  c := by simpa [updateFlags, flagsFromAlu, aluSub] using subB_carry_iff a b false
  sign := by simpa [updateFlags, flagsFromAlu, aluSub] using subB_sign_eq_overflow_iff a b

/-- Settles O29: each format of CMP is a subtraction in the common shape of R61, and the strict comparisons follow from
the other three. -/
theorem compareFlagRelations : Obligations.CompareFlagRelations := by
  intro i s a b hi
  have hexec : exec i s = .next (aluStep aluSub none a .noShift b .a s) := by
    obtain ⟨r, k, rfl, rfl, rfl⟩ | ⟨r, k, rfl, rfl, rfl⟩ | ⟨rA, rB, rfl, rfl, rfl⟩ := hi <;> rfl
  obtain ⟨hz, hc, hsign⟩ := aluStep_sub_compares a b s
  refine ⟨_, hexec, hz, hc, ?_, hsign, ?_⟩
  · rw [hc, Bool.eq_false_iff, Ne, hz, ← BitVec.toNat_inj]
    omega
  · rw [Ne, hsign, Int.not_le]

end Sys2Proof.Machine
end

section
/-! The statements of `40_common_alu.md` about the status override, the frame and the sources of an instruction (R50,
R57 to R61). -/

namespace Sys2Proof.Machine

/-! ### The frame and the sources (R50, R61) -/

/-- What an instruction that completes has done: LOAD's write (R60), or the common shape of R61. -/
theorem exec_next_form {i : Instr} {s t : State} (h : exec i s = .next t) :
    (∃ rD v, i.op = .load ∧ i.dest = some rD ∧ t = loadStep rD v s) ∨
    (∃ f a sh b, aluOf i.op = some f ∧ t = aluStep f i.dest a sh b i.sf s) := by
  cases exec_meaning i with
  | refused r _ exec_eq => exact absurd ((exec_eq s).symm.trans h) (refuse_ne_next r t)
  | load rD v _ hop hdest _ exec_eq =>
    cases (exec_eq s).symm.trans h
    exact .inl ⟨rD, v.value s, hop, hdest, rfl⟩
  | alu f rS1 sh b _ hf _ exec_eq =>
    cases (exec_eq s).symm.trans h
    exact .inr ⟨f, s.getReg rS1, sh, b.value s, hf, rfl⟩

theorem aluStep_frame (f : AluFn) (d : Option Reg) (a : Word) (sh : Shift) (b : Word) (sf : SF) (s : State) :
    Frame s (aluStep f d a sh b sf s) d where
  regs _ h := aluStep_getReg_other f a sh b sf s h
  pc := aluStep_pc ..
  program := aluStep_program ..

theorem loadStep_frame (rD : Reg) (v : Word) (s : State) : Frame s (loadStep rD v s) (some rD) where
  regs _ h := loadStep_getReg_other v s fun e => h (congrArg some e)
  pc := loadStep_pc ..
  program := loadStep_program ..

/-- Settles O38: LOAD's write and the common shape of R61 each have the frame. -/
theorem everyInstructionFrame : Obligations.EveryInstructionFrame := by
  intro i s t h
  obtain ⟨rD, v, -, hdest, rfl⟩ | ⟨f, a, sh, b, -, rfl⟩ := exec_next_form h
  · rw [hdest]
    exact loadStep_frame ..
  · exact aluStep_frame ..

/-- An operand has the same value in states that agree on the registers it is read from. -/
theorem Source.value_congr {b : Source} {s s' : State} (h : ∀ r ∈ b.regs, s'.getReg r = s.getReg r) :
    b.value s' = b.value s := by
  cases b with
  | const k => rfl
  | reg r => exact h r (List.mem_singleton_self r)

/-- Settles O40, by the form of the instruction's meaning: what it reads of the registers is the value of its operands,
and its destination and flags are functions of those values and the old flags. -/
theorem dependsOnlyOnSources : Obligations.DependsOnlyOnSources := by
  intro i s t x hagree h
  cases exec_meaning i with
  | refused r _ exec_eq => exact absurd ((exec_eq s).symm.trans h) (refuse_ne_next r t)
  | load rD v _ _ hdest hsources exec_eq =>
    cases (exec_eq s).symm.trans h
    rw [hsources] at hagree
    refine ⟨_, exec_eq _, by simp, fun r hr => ?_⟩
    cases hdest.symm.trans hr
    rw [loadStep_getReg_dest, loadStep_getReg_dest, Source.value_congr hagree]
  | alu f rS1 sh b _ _ hsources exec_eq =>
    cases (exec_eq s).symm.trans h
    rw [hsources] at hagree
    obtain ⟨ha, hb⟩ := List.forall_mem_cons.mp hagree
    refine ⟨_, exec_eq _, ?_, fun r hr => ?_⟩
    · rw [aluStep_sr, aluStep_sr, ha, Source.value_congr hb]
    · rw [hr, aluStep_getReg_dest, aluStep_getReg_dest, ha, Source.value_congr hb]

/-! ### LOAD (R60) -/

/-- The three formats of LOAD treat `[A]` and `[N]` alike. -/
theorem exec_load_a_eq_n {i : Instr} (hop : i.op = .load) (s : State) :
    exec (i.withSf .a) s = exec (i.withSf .n) s := by
  cases hs : i.shape with
  | imm op r k sf =>
    obtain rfl : op = .load := by simpa [Instr.op, hs] using hop
    obtain rfl := eq_ofImm_of_shape hs
    rfl
  | short op r k sh sf =>
    obtain rfl : op = .load := by simpa [Instr.op, hs] using hop
    obtain rfl := eq_ofShort_of_shape hs
    rfl
  | reg op rD rS1 rS2 sh sf =>
    obtain rfl : op = .load := by simpa [Instr.op, hs] using hop
    obtain ⟨d, rfl⟩ := eq_loadReg_of_shape hs
    cases sh with
    | noShift => rfl
    | lsl n => rfl

/-- Settles O35: LOAD's meaning writes no flag, R30 refuses it under `[S]`, and its three formats treat `[A]` and `[N]`
alike. -/
theorem loadKeepsFlags : Obligations.LoadKeepsFlags := by
  intro i s hop
  refine ⟨fun t h => ?_, fun hsf => ?_, exec_load_a_eq_n hop s⟩
  · obtain ⟨rD, v, -, -, rfl⟩ | ⟨f, a, sh, b, hf, -⟩ := exec_next_form h
    · exact loadStep_sr ..
    · exact absurd hop (ne_load_of_aluOf hf)
  · have hrefusal : i.refusal ≠ none := fun h => sf_ne_s_of_load h hop hsf
    obtain ⟨r, hr⟩ := Option.ne_none_iff_exists'.mp hrefusal
    exact ⟨r, exec_eq_refuse_iff.mpr hr⟩

/-! ### The override steers the flags alone (R57 to R59) -/

/-- In the common shape of R61 the override reaches no field but the flags. -/
theorem aluStep_eq_setSr (f : AluFn) (d : Option Reg) (a : Word) (sh : Shift) (b : Word) (sf sf' : SF) (s : State) :
    aluStep f d a sh b sf s = (aluStep f d a sh b sf' s).setSr (aluStep f d a sh b sf s).sr := rfl

theorem aluImm_under_a {f : AluFn} {d : Option Reg} {r : Reg} {k : Word} {sf : SF} {s t : State}
    (h : aluImm f d r k sf s = .next t) : ∃ u, aluImm f d r k .a s = .next u ∧ t = u.setSr t.sr := by
  obtain ⟨-, he⟩ | ⟨-, he⟩ := aluImm_cases f d r k sf s
  · exact absurd (he.symm.trans h) (refuse_ne_next _ t)
  · cases he.symm.trans h
    exact ⟨_, rfl, aluStep_eq_setSr ..⟩

theorem aluShort_under_a {f : AluFn} {d : Option Reg} {r : Reg} {k : Byte} {sh : Shift} {sf : SF} {s t : State}
    (h : aluShort f d r k sh sf s = .next t) : ∃ u, aluShort f d r k sh .a s = .next u ∧ t = u.setSr t.sr := by
  cases h
  exact ⟨_, rfl, aluStep_eq_setSr ..⟩

theorem aluReg_under_a {f : AluFn} {d : Option Reg} {rS1 rS2 : Reg} {sh : Shift} {sf : SF} {s t : State}
    (h : aluReg f d rS1 rS2 sh sf s = .next t) : ∃ u, aluReg f d rS1 rS2 sh .a s = .next u ∧ t = u.setSr t.sr := by
  cases h
  exact ⟨_, rfl, aluStep_eq_setSr ..⟩

theorem execLoadImm_under_a {rD : Reg} {k : Word} {sf : SF} {s t : State} (h : execLoadImm rD k sf s = .next t) :
    ∃ u, execLoadImm rD k .a s = .next u ∧ t = u.setSr t.sr := by
  obtain ⟨-, he⟩ | ⟨-, he⟩ := execLoadImm_cases rD k sf s
  · exact absurd (he.symm.trans h) (refuse_ne_next _ t)
  · cases he.symm.trans h
    exact ⟨_, rfl, rfl⟩

theorem execLoadShort_under_a {rD : Reg} {k : Byte} {sh : Shift} {sf : SF} {s t : State}
    (h : execLoadShort rD k sh sf s = .next t) : ∃ u, execLoadShort rD k sh .a s = .next u ∧ t = u.setSr t.sr := by
  obtain ⟨-, he⟩ | ⟨-, he⟩ := execLoadShort_cases rD k sh sf s
  · exact absurd (he.symm.trans h) (refuse_ne_next _ t)
  · cases he.symm.trans h
    exact ⟨_, rfl, rfl⟩

theorem execLoadReg_under_a {rD rS : Reg} {sh : Shift} {sf : SF} {s t : State}
    (h : execLoadReg rD rS sh sf s = .next t) : ∃ u, execLoadReg rD rS sh .a s = .next u ∧ t = u.setSr t.sr := by
  obtain ⟨-, he⟩ | ⟨-, -, he⟩ | ⟨-, rfl, he⟩ := execLoadReg_cases rD rS sh sf s
  · exact absurd (he.symm.trans h) (refuse_ne_next _ t)
  · exact absurd (he.symm.trans h) (refuse_ne_next _ t)
  · cases he.symm.trans h
    exact ⟨_, rfl, rfl⟩

/-- An instruction that completes completes under `[A]` too, with a next state that differs in the flags alone. -/
theorem exec_under_a {i : Instr} {s t : State} (h : exec i s = .next t) :
    ∃ u, exec (i.withSf .a) s = .next u ∧ t = u.setSr t.sr :=
  match i, h with
  | .addImm .., h | .adcImm .., h | .subImm .., h | .sbcImm .., h | .andImm .., h | .orrImm .., h | .xorImm .., h
  | .cmpImm .., h | .tsaImm .., h | .tsxImm .., h => aluImm_under_a h
  | .addShort .., h | .adcShort .., h | .subShort .., h | .sbcShort .., h | .andShort .., h | .orrShort .., h
  | .xorShort .., h | .cmpShort .., h | .tsaShort .., h | .tsxShort .., h => aluShort_under_a h
  | .addReg .., h | .adcReg .., h | .subReg .., h | .sbcReg .., h | .andReg .., h | .orrReg .., h | .xorReg .., h
  | .cmpReg .., h | .tsaReg .., h | .tsxReg .., h => aluReg_under_a h
  | .loadImm .., h => execLoadImm_under_a h
  | .loadShort .., h => execLoadShort_under_a h
  | .loadReg .., h => execLoadReg_under_a h

/-! ### `[N]` (R59) -/

/-- Exactly the test operations have no destination. -/
theorem dest_isNone (i : Instr) : i.dest.isNone = i.op.isTest := by
  cases i <;> rfl

/-- Without a destination and under `[N]` the common shape of R61 moves `pc` on and does nothing else. -/
theorem aluStep_none_n (f : AluFn) (a : Word) (sh : Shift) (b : Word) (s : State) :
    aluStep f none a sh b .n s = s.advance := rfl

theorem exec_n_keeps_flags {i : Instr} {s t : State} (hsf : i.sf = .n) (h : exec i s = .next t) : t.sr = s.sr := by
  obtain ⟨rD, v, -, -, rfl⟩ | ⟨f, a, sh, b, -, rfl⟩ := exec_next_form h
  · exact loadStep_sr ..
  · rw [hsf, aluStep_sr]
    rfl

theorem exec_test_n {i : Instr} {s t : State} (hsf : i.sf = .n) (htest : i.op.isTest = true)
    (h : exec i s = .next t) : t = s.advance := by
  have hdest : i.dest = none := Option.isNone_iff_eq_none.mp ((dest_isNone i).trans htest)
  obtain ⟨rD, v, -, hsome, -⟩ | ⟨f, a, sh, b, -, rfl⟩ := exec_next_form h
  · cases hdest.symm.trans hsome
  · rw [hsf, hdest, aluStep_none_n]

/-- Settles O33: the flags, the same instruction under `[A]`, and the test operations, one lemma for each. -/
theorem overrideNKeepsFlags : Obligations.OverrideNKeepsFlags := by
  intro i s t hsf h
  have hsr := exec_n_keeps_flags hsf h
  refine ⟨hsr, ?_, fun htest => exec_test_n hsf htest h⟩
  rw [← hsr]
  exact exec_under_a h

/-! ### `[S]` (R58) -/

theorem shifted_eq_shiftResult (v : Word) (sh : Shift) : shifted v sh = shiftResult v sh := by
  cases sh with
  | noShift => rfl
  | lsl n => exact lsl16_eq_shiftLeft v n

/-- The flags that the common shape of R61 writes under `[S]`. -/
theorem flagsReport_aluStep_s (f : AluFn) (d : Option Reg) (a : Word) (sh : Shift) (b : Word) (s : State) :
    FlagsReport (aluStep f d a sh b .s s) (shiftResult a sh) ((Config.shiftCV sh a s.sr.c s.sr.v).1 = true)
      ((Config.shiftCV sh a s.sr.c s.sr.v).2 = true) where
  n := by simp [updateFlags, flagsFromShift, shifted_eq_shiftResult, BitVec.msb_eq_getLsbD_last]
  z := by simp [updateFlags, flagsFromShift, shifted_eq_shiftResult]
  c := by simp [updateFlags, flagsFromShift]
  v := by simp [updateFlags, flagsFromShift]

/-- An operation other than LOAD in a format with a shifter completes under every override, in the common shape of R61
with its first source shifted (R50, second and third row). -/
theorem exec_of_shifter_shape {i : Instr} {op : Op} {r : Reg} {sh : Shift} {sf : SF} (hop : op ≠ .load)
    (h : (∃ k, i.shape = .short op r k sh sf) ∨ ∃ rD rS2, i.shape = .reg op rD (some r) rS2 sh sf) (s : State) :
    ∃ f b, exec i s = .next (aluStep f i.dest (s.getReg r) sh b sf s) := by
  obtain ⟨k, hs⟩ | ⟨rD, rS2, hs⟩ := h
  · obtain rfl := eq_ofShort_of_shape hs
    cases op with
    | load => exact absurd rfl hop
    | add | adc | sub | sbc | and | orr | xor | cmp | tsa | tsx => exact ⟨_, _, rfl⟩
  · match i, hs with
    | .addReg .., rfl | .adcReg .., rfl | .subReg .., rfl | .sbcReg .., rfl | .andReg .., rfl | .orrReg .., rfl
    | .xorReg .., rfl | .cmpReg .., rfl | .tsaReg .., rfl | .tsxReg .., rfl => exact ⟨_, _, rfl⟩

/-- Settles O34: R30's two refusals of `[S]`, and the common shape of R61 elsewhere, which under `[A]` differs in the
flags alone. -/
theorem overrideSTakesShiftFlags : Obligations.OverrideSTakesShiftFlags := by
  intro i s hsf
  refine ⟨fun hformat => ?_, fun hformat hload => ?_, fun op r sh hop hshape => ?_⟩
  · exact exec_eq_refuse_iff.mpr ((refusal_eq_immFormatHasNoShifter_iff i).mpr ⟨hformat, hsf⟩)
  · exact exec_eq_refuse_iff.mpr ((refusal_eq_loadShiftFlagsNotInSource_iff i).mpr ⟨hformat, hload, hsf⟩)
  · obtain ⟨f, b, hexec⟩ := exec_of_shifter_shape hop hshape s
    obtain ⟨u, hu, hsame⟩ := exec_under_a hexec
    exact ⟨_, u, hexec, hu, hsame, flagsReport_aluStep_s ..⟩

end Sys2Proof.Machine
end

section
/-! The statements of `40_common_alu.md` about the run: a step at an entry, and a run as the steps at the entries from
`pc` on (R61, R62; `70_reset_and_hazards.md` R123). -/

namespace Sys2Proof.Machine

/-- R62: an instruction answers a next state exactly if R30 admits it. -/
theorem exec_next_iff {i : Instr} {s : State} : (∃ t, exec i s = .next t) ↔ i.WellFormed := by
  cases exec_meaning i with
  | refused r hr exec_eq => simp [exec_eq, hr]
  | load rD v admitted _ _ _ exec_eq => simpa [exec_eq] using admitted
  | alu f rS1 sh b admitted _ _ exec_eq => simpa [exec_eq] using admitted

/-- Settles O36: the form of a meaning depends on the operands alone, never on registers or flags. -/
theorem admittedCompletes : Obligations.AdmittedCompletes :=
  fun _ _ => ⟨exec_next_iff.mpr, fun _ => exec_eq_refuse_iff.mpr⟩

/-! ### A step at an entry -/

theorem step_of_refused_entry {s : State} {e : ProgramEntry} {r : RefuseReason} (he : s.program[s.pc]? = some e)
    (hd : decodeEntry e = .error r) : step s = refuse r := by
  simp [step, State.fetch, he, hd]

/-- Settles O41, by what the entry at `pc` stands for. -/
theorem stepRunsDecoded : Obligations.StepRunsDecoded := by
  intro s w i r
  refine ⟨fun he hd => ?_, fun he => ?_, fun he hd => ?_⟩
  · exact step_of_entry he hd
  · exact step_of_entry he rfl
  · exact step_of_refused_entry he hd

theorem step_next_iff_admitted {s : State} {e : ProgramEntry} (he : s.program[s.pc]? = some e) :
    (∃ t, step s = .next t) ↔ e.Admitted := by
  unfold ProgramEntry.Admitted
  cases hd : decodeEntry e with
  | error r => simp [step_of_refused_entry he hd]
  | ok i => simp [step_of_entry he hd, exec_next_iff]

theorem step_next_position {s t : State} (h : step s = .next t) : t.pc = s.pc + 1 ∧ t.program = s.program := by
  obtain ⟨_, _, _, _, hexec⟩ := step_next h
  exact exec_next_position hexec

/-! ### The run -/

@[simp] theorem runSteps_zero (s : State) : runSteps 0 s = .next s := rfl

theorem runSteps_succ_of_next {s t : State} (h : step s = .next t) (n : Nat) : runSteps (n + 1) s = runSteps n t := by
  simp [runSteps, h]

theorem runSteps_succ_eq_next_iff {n : Nat} {s u : State} :
    runSteps (n + 1) s = .next u ↔ ∃ t, step s = .next t ∧ runSteps n t = .next u := by
  cases h : step s <;> simp [runSteps, h]

theorem runSteps_next_position {n : Nat} {s t : State} (h : runSteps n s = .next t) :
    t.pc = s.pc + n ∧ t.program = s.program := by
  induction n generalizing s with
  | zero =>
    cases h
    exact ⟨rfl, rfl⟩
  | succ n ih =>
    obtain ⟨u, hstep, hrun⟩ := runSteps_succ_eq_next_iff.mp h
    obtain ⟨hpc, hprogram⟩ := step_next_position hstep
    obtain ⟨hpc', hprogram'⟩ := ih hrun
    exact ⟨by omega, hprogram'.trans hprogram⟩

/-- The spec gives each of the `n` entries from `pc` on a meaning. -/
def State.AdmittedFor (s : State) (n : Nat) : Prop :=
  ∀ k e, s.pc ≤ k → k < s.pc + n → s.program[k]? = some e → e.Admitted

theorem State.admittedFor_zero (s : State) : s.AdmittedFor 0 := by
  intro k e hle hlt
  omega

/-- The entries from `pc` on are the entry at `pc` and those that the next step finds. -/
theorem State.admittedFor_succ_iff {s t : State} {e : ProgramEntry} {n : Nat} (he : s.program[s.pc]? = some e)
    (hpc : t.pc = s.pc + 1) (hprogram : t.program = s.program) :
    s.AdmittedFor (n + 1) ↔ e.Admitted ∧ t.AdmittedFor n := by
  unfold State.AdmittedFor
  rw [hpc, hprogram]
  constructor
  · intro h
    exact ⟨h _ e le_rfl (by omega) he, fun k e' hle hlt => h k e' (by omega) (by omega)⟩
  · rintro ⟨hfirst, hrest⟩ k e' hle hlt hk
    obtain rfl | hne := Nat.eq_or_lt_of_le hle
    · cases he.symm.trans hk
      exact hfirst
    · exact hrest k e' hne (by omega) hk

/-- `n` steps inside the program answer a next state exactly if each of their entries has a meaning. -/
theorem runSteps_next_iff_admittedFor {n : Nat} {s : State} (hn : s.pc + n ≤ s.program.length) :
    (∃ t, runSteps n s = .next t) ↔ s.AdmittedFor n := by
  induction n generalizing s with
  | zero => simp [s.admittedFor_zero]
  | succ n ih =>
    have he : s.program[s.pc]? = some s.program[s.pc] := List.getElem?_eq_getElem (by omega)
    by_cases hstep : ∃ t, step s = .next t
    · have hadm := (step_next_iff_admitted he).mp hstep
      obtain ⟨t, ht⟩ := hstep
      obtain ⟨hpc, hprogram⟩ := step_next_position ht
      rw [runSteps_succ_of_next ht, ih (by rw [hpc, hprogram]; omega), State.admittedFor_succ_iff he hpc hprogram]
      simp [hadm]
    · refine iff_of_false (fun ⟨u, hrun⟩ => ?_) fun h => ?_
      · obtain ⟨t, ht, -⟩ := runSteps_succ_eq_next_iff.mp hrun
        exact hstep ⟨t, ht⟩
      · exact hstep ((step_next_iff_admitted he).mpr (h _ _ le_rfl (by omega) he))

/-- A run that answers a next state after as many steps as entries remain is at the end, with the program it had. -/
theorem completes_iff_runSteps_next {s : State} (h : s.Inv) :
    s.Completes ↔ ∃ t, runSteps (s.program.length - s.pc) s = .next t := by
  refine exists_congr fun t => ⟨And.left, fun hrun => ⟨hrun, ?_⟩⟩
  obtain ⟨hpc, hprogram⟩ := runSteps_next_position hrun
  refine ⟨?_, hprogram⟩
  show t.pc = t.program.length
  rw [hpc, hprogram, Nat.add_sub_cancel' h]

/-- Settles O46, by induction on the number of entries that remain (`runSteps_next_iff_admittedFor`): each step takes
the entry at `pc`, and goes on exactly if that entry has a meaning. -/
theorem runCompletesIffAdmitted : Obligations.RunCompletesIffAdmitted := by
  intro s hinv
  have hend : s.pc + (s.program.length - s.pc) = s.program.length := Nat.add_sub_cancel' hinv
  rw [completes_iff_runSteps_next hinv, runSteps_next_iff_admittedFor hend.le, State.AdmittedFor, hend]
  refine forall₂_congr fun k e => imp_congr_right fun _ => ⟨fun h hk => ?_, fun h _ => h⟩
  obtain ⟨hlt, -⟩ := List.getElem?_eq_some_iff.mp hk
  exact h hlt hk

end Sys2Proof.Machine
end

section
/-! The statements of `41_arithmetic.md`: the rules of ADD, ADC, SUB and SBC in their three formats (R70 to R81), and
the corner case of R70. The layer before them holds for every operation with an ALU operation. -/

namespace Sys2Proof.Machine

/-! ### The common shape of R61 against a claim about its ALU operation -/

/-- The ALU operation computes what the claim says of it, for all operands and either old C (R54 to R57). -/
structure Computes (f : AluFn) (op : AluClaim) : Prop where
  result : ∀ a b c, (f a b c).result = op.result a b c
  carry : ∀ a b c, (f a b c).carry = true ↔ op.carry a b c
  overflow : ∀ a b c, (f a b c).overflow = true ↔ op.overflow a b c

/-- The flags that the common shape of R61 writes under `[A]` (R57). -/
theorem flagsReport_aluStep_a {f : AluFn} {op : AluClaim} (h : Computes f op) (d : Option Reg) (a : Word) (sh : Shift)
    (b : Word) (s : State) :
    FlagsReport (aluStep f d a sh b .a s) (op.result (shiftResult a sh) b s.sr.c)
      (op.carry (shiftResult a sh) b s.sr.c) (op.overflow (shiftResult a sh) b s.sr.c) where
  n := by simp [updateFlags, flagsFromAlu, shifted_eq_shiftResult, h.result, BitVec.msb_eq_getLsbD_last]
  z := by simp [updateFlags, flagsFromAlu, shifted_eq_shiftResult, h.result]
  c := by simp [updateFlags, flagsFromAlu, shifted_eq_shiftResult, h.carry]
  v := by simp [updateFlags, flagsFromAlu, shifted_eq_shiftResult, h.overflow]

theorem aluNext_aluStep {f : AluFn} {op : AluClaim} (h : Computes f op) (d : Option Reg) (a : Word) (sh : Shift)
    (b : Word) (sf : SF) (s : State) : AluNext op d a sh b sf s (aluStep f d a sh b sf s) where
  frame := aluStep_frame ..
  result r hd := by rw [hd, aluStep_getReg_dest, h.result, shifted_eq_shiftResult]
  flagsA hsf := by
    subst hsf
    exact flagsReport_aluStep_a h ..
  flagsS hsf := by
    subst hsf
    exact flagsReport_aluStep_s ..
  flagsN hsf := by
    subst hsf
    exact aluStep_sr ..

/-! ### The meaning of an instruction by its operation and format (R50) -/

theorem exec_ofImm {op : Op} {f : AluFn} (hf : aluOf op = some f) (r : Reg) (k : Word) (sf : SF) :
    exec (.ofImm op r k sf) = aluImm f (if op.isTest then none else some r) r k sf := by
  cases op with
  | load => cases hf
  | add | adc | sub | sbc | and | orr | xor | cmp | tsa | tsx => cases hf; rfl

theorem exec_ofShort {op : Op} {f : AluFn} (hf : aluOf op = some f) (r : Reg) (k : Byte) (sh : Shift) (sf : SF) :
    exec (.ofShort op r k sh sf) = aluShort f (if op.isTest then none else some r) r k sh sf := by
  cases op with
  | load => cases hf
  | add | adc | sub | sbc | and | orr | xor | cmp | tsa | tsx => cases hf; rfl

theorem exec_of_ofReg3 {op : Op} {f : AluFn} {rD rS1 rS2 : Reg} {sh : Shift} {sf : SF} {i : Instr}
    (hf : aluOf op = some f) (hi : Instr.ofReg3 op rD rS1 rS2 sh sf = some i) :
    exec i = aluReg f (some rD) rS1 rS2 sh sf := by
  cases op with
  | load | cmp | tsa | tsx => cases hi
  | add | adc | sub | sbc | and | orr | xor => cases hf; cases hi; rfl

/-! ### The rules of the three formats, for every operation with an ALU operation -/

theorem immRule_ofImm {name : Op} {f : AluFn} {op : AluClaim} (hf : aluOf name = some f) (h : Computes f op) :
    ImmRule name op (opcodeOf .imm name) (.ofImm name) := by
  intro r k s
  rw [exec_ofImm hf]
  refine ⟨fun sf => ⟨assembleImm_toNat .., ?encoding⟩, fun sf hsf => ?effect, rfl⟩
  case encoding => simp only [encode, Instr.shape_ofImm, immWord]
  case effect =>
    rw [exec_ofImm hf]
    obtain ⟨hs, -⟩ | ⟨-, hnext⟩ := aluImm_cases f (if name.isTest then none else some r) r k sf s
    · exact absurd hs hsf
    · exact ⟨_, hnext, aluNext_aluStep h ..⟩

theorem shortRule_ofShort {name : Op} {f : AluFn} {op : AluClaim} (hf : aluOf name = some f) (h : Computes f op) :
    ShortRule name op (opcodeOf .short name) (.ofShort name) := by
  intro r k sh sf s
  rw [exec_ofShort hf]
  refine ⟨fun n hsh => ?spelling, ?encoding, _, rfl, aluNext_aluStep h ..⟩
  case spelling =>
    subst hsh
    exact assembleShort_toNat ..
  case encoding => simp only [encode, Instr.shape_ofShort, shortWord]

theorem regRule_of_ofReg3 {name : Op} {f : AluFn} {op : AluClaim} {mk : Reg → Reg → Reg → Shift → SF → Instr}
    (hmk : ∀ rD rS1 rS2 sh sf, Instr.ofReg3 name rD rS1 rS2 sh sf = some (mk rD rS1 rS2 sh sf))
    (hf : aluOf name = some f) (h : Computes f op) : RegRule name op (opcodeOf .reg name) mk := by
  intro rD rS1 rS2 sh sf s
  have hi := hmk rD rS1 rS2 sh sf
  obtain ⟨-, hshape⟩ := shape_of_ofReg3 hi
  rw [exec_of_ofReg3 hf hi]
  refine ⟨assembleReg_three hi, ?encoding, _, rfl, aluNext_aluStep h ..⟩
  case encoding => simp only [encode, hshape, regWord, Reg.codeOrZero]

/-- The three rules of an operation with a destination. -/
theorem rules_of_computes {name : Op} {f : AluFn} {op : AluClaim} {mk : Reg → Reg → Reg → Shift → SF → Instr}
    (hmk : ∀ rD rS1 rS2 sh sf, Instr.ofReg3 name rD rS1 rS2 sh sf = some (mk rD rS1 rS2 sh sf))
    (hf : aluOf name = some f) (h : Computes f op) :
    ImmRule name op (opcodeOf .imm name) (.ofImm name) ∧ ShortRule name op (opcodeOf .short name) (.ofShort name) ∧
      RegRule name op (opcodeOf .reg name) mk :=
  ⟨immRule_ofImm hf h, shortRule_ofShort hf h, regRule_of_ofReg3 hmk hf h⟩

/-! ### ADD, ADC, SUB and SBC (R54, R55): the ALU operation of each meets its claim, so its three rules hold -/

theorem computes_aluAdd : Computes aluAdd .add where
  result := aluAdd_result
  carry a b _ := addC_carry_iff a b false
  overflow a b _ := by simpa [aluAdd, AluClaim.add] using addC_overflow_iff a b false

theorem computes_aluAdc : Computes aluAdc .adc where
  result := addC_result
  carry := addC_carry_iff
  overflow := addC_overflow_iff

theorem computes_aluSub : Computes aluSub .sub where
  result := aluSub_result
  carry a b _ := subB_carry_iff a b false
  overflow a b _ := by simpa [aluSub, AluClaim.sub] using subB_overflow_iff a b false

theorem computes_aluSbc : Computes aluSbc .sbc where
  result a b c := subB_result a b (!c)
  carry a b c := subB_carry_iff a b (!c)
  overflow a b c := subB_overflow_iff a b (!c)

/-- Settles O18: ADD is R54's sum without a carry in. -/
theorem addRules : Obligations.AddRules :=
  rules_of_computes (fun _ _ _ _ _ => rfl) rfl computes_aluAdd

/-- Settles O19: ADC is R54's sum with the old C as carry in. -/
theorem adcRules : Obligations.AdcRules :=
  rules_of_computes (fun _ _ _ _ _ => rfl) rfl computes_aluAdc

/-- Settles O20: SUB is R55's difference without a borrow in. -/
theorem subRules : Obligations.SubRules :=
  rules_of_computes (fun _ _ _ _ _ => rfl) rfl computes_aluSub

/-- Settles O21: SBC is R55's difference with the inverse of the old C as borrow in. -/
theorem sbcRules : Obligations.SbcRules :=
  rules_of_computes (fun _ _ _ _ _ => rfl) rfl computes_aluSbc

/-! ### Adding 0xFFFF (R70, corner cases) -/

/-- An ALU operation reaches the next state through what it returns on the operands. -/
theorem aluImm_congr {f g : AluFn} {k l : Word} (h : ∀ a c, f a k c = g a l c) (d : Option Reg) (r : Reg) (sf : SF)
    (s : State) : aluImm f d r k sf s = aluImm g d r l sf s := by
  cases sf with
  | s => rfl
  | a | n => simp only [aluImm, aluStep, immOperand_eq, h]

theorem AluOut.ext_of_fields {x y : AluOut} (hresult : x.result = y.result) (hcarry : x.carry = y.carry)
    (hoverflow : x.overflow = y.overflow) : x = y := by
  cases x
  cases y
  simp_all

/-- 0xFFFF is -1: the sum has the result, the carry out and the signed overflow of the difference. -/
theorem aluAdd_ones_eq_aluSub_one (a : Word) (c : Bool) : aluAdd a 0xFFFF#16 c = aluSub a 0x0001#16 c := by
  have hresult : (aluAdd a 0xFFFF#16 c).result = (aluSub a 0x0001#16 c).result := by
    rw [aluAdd_result, aluSub_result]
    exact (BitVec.sub_eq_add_neg a 1#16).symm
  have hcarry : (aluAdd a 0xFFFF#16 c).carry = (aluSub a 0x0001#16 c).carry := by
    rw [Bool.eq_iff_iff, computes_aluAdd.carry, computes_aluSub.carry]
    change 65536 ≤ a.toNat + 65535 ↔ 1 ≤ a.toNat
    omega
  have hoverflow : (aluAdd a 0xFFFF#16 c).overflow = (aluSub a 0x0001#16 c).overflow := by
    rw [Bool.eq_iff_iff, computes_aluAdd.overflow, computes_aluSub.overflow]
    change OutsideSigned (a.toInt + -1) ↔ OutsideSigned (a.toInt - 1)
    rw [Int.sub_eq_add_neg]
  exact AluOut.ext_of_fields hresult hcarry hoverflow

/-- Settles O30: the two ALU operations return the same, and under `[S]` the format refuses both. -/
theorem addMinusOneIsSubOne : Obligations.AddMinusOneIsSubOne := fun r sf s =>
  aluImm_congr aluAdd_ones_eq_aluSub_one (some r) r sf s

end Sys2Proof.Machine
end

section
/-! The statements of `42_logical.md`: the rules of AND, ORR and XOR in their three formats (R82 to R90), and the corner
case of R83. -/

namespace Sys2Proof.Machine

/-! ### AND, ORR and XOR (R56): a logical operation meets its claim, so its three rules hold -/

/-- A logical operation reports its result with C and V cleared (R57). -/
theorem computes_logical (g : Word → Word → Word) : Computes (fun a b _ => logical (g a b)) (.logical g) where
  result _ _ _ := rfl
  carry _ _ _ := iff_of_false Bool.false_ne_true id
  overflow _ _ _ := iff_of_false Bool.false_ne_true id

theorem computes_aluAnd : Computes aluAnd .and := computes_logical _

theorem computes_aluOrr : Computes aluOrr .orr := computes_logical _

theorem computes_aluXor : Computes aluXor .xor := computes_logical _

/-- Settles O22: AND is R56's conjunction. -/
theorem andRules : Obligations.AndRules :=
  rules_of_computes (fun _ _ _ _ _ => rfl) rfl computes_aluAnd

/-- Settles O23: ORR is R56's disjunction. -/
theorem orrRules : Obligations.OrrRules :=
  rules_of_computes (fun _ _ _ _ _ => rfl) rfl computes_aluOrr

/-- Settles O24: XOR is R56's exclusive disjunction. -/
theorem xorRules : Obligations.XorRules :=
  rules_of_computes (fun _ _ _ _ _ => rfl) rfl computes_aluXor

/-! ### AND with a zero-extended constant (R83, corner cases) -/

/-- A zero-extended byte masks the high byte away. -/
theorem and_setWidth_byte_toNat_le (v : Word) (k : Byte) : (v &&& k.setWidth 16).toNat ≤ 255 := by
  have hmask : (k.setWidth 16).toNat = k.toNat := zext16_toNat k
  have hk := k.isLt
  have hle : (v &&& k.setWidth 16).toNat ≤ (k.setWidth 16).toNat := Nat.and_le_right
  omega

/-- A shift of 8 places or more leaves no bit in the low byte, where alone a zero-extended byte has bits. -/
theorem shiftLeft_and_setWidth_byte {n : Nat} (hn : 8 ≤ n) (v : Word) (k : Byte) :
    v <<< n &&& k.setWidth 16 = 0#16 := by
  apply BitVec.eq_of_getLsbD_eq
  intro j hj
  rw [BitVec.getLsbD_and, BitVec.getLsbD_shiftLeft, BitVec.getLsbD_setWidth, BitVec.getLsbD_zero]
  by_cases hjn : j < n
  · simp [hjn]
  · have hhigh : k.getLsbD j = false := BitVec.getLsbD_of_ge k j (by omega)
    simp [hhigh]

/-- Settles O31: both are R56's conjunction in the common shape of R61, TSA without the destination; the rest is about
the masked value. -/
theorem shortAndIsLowByte : Obligations.ShortAndIsLowByte := by
  intro r k sh s
  have hnext := aluNext_aluStep computes_aluAnd (some r) (s.getReg r) sh (k.setWidth 16) .a s
  have hflags : FlagsReport _ (shiftResult (s.getReg r) sh &&& k.setWidth 16) False False := hnext.flagsA rfl
  have hresult : (aluStep aluAnd (some r) (s.getReg r) sh (k.setWidth 16) .a s).getReg r =
      shiftResult (s.getReg r) sh &&& k.setWidth 16 := hnext.result r rfl
  have hbyte := and_setWidth_byte_toNat_le (shiftResult (s.getReg r) sh) k
  refine ⟨_, _, aluShort_eq .., aluShort_eq .., ?sameFlags, ?lowByte, ?positive, fun n hsh hn => ?shiftedOut⟩
  case sameFlags => rw [aluStep_sr, aluStep_sr]
  case lowByte => exact hresult ▸ hbyte
  case positive =>
    refine hflags.n.trans ?_
    rw [getLsbD_15_eq, decide_eq_false_iff_not]
    omega
  case shiftedOut =>
    have hzero : shiftResult (s.getReg r) sh &&& k.setWidth 16 = 0#16 := by
      rw [hsh]
      exact shiftLeft_and_setWidth_byte hn (s.getReg r) k
    exact ⟨hresult.trans hzero, hflags.z.mpr hzero⟩

end Sys2Proof.Machine
end

section
/-! The statement of `43_load.md`: the rules of LOAD in its three formats (R91 to R93), with R30's refusals. -/

namespace Sys2Proof.Machine

/-! ### LOAD outside R30's refusals (R60) -/

/-- LOAD's write is what R60 says of it: the frame, the destination, and no flag. -/
theorem loadNext_loadStep (rD : Reg) (v : Word) (s : State) : LoadNext rD v s (loadStep rD v s) where
  frame := loadStep_frame ..
  result := loadStep_getReg_dest ..
  flags := loadStep_sr ..

theorem exec_loadImm_of_ne_s {sf : SF} (h : sf ≠ .s) (rD : Reg) (k : Word) (s : State) :
    exec (.loadImm rD k sf) s = .next (loadStep rD k s) := by
  obtain ⟨hs, -⟩ | ⟨-, hnext⟩ := execLoadImm_cases rD k sf s
  · exact absurd hs h
  · exact hnext

/-- The constant is shifted, and `rD` is not read (`90_conflicts.md` C8). -/
theorem exec_loadShort_of_ne_s {sf : SF} (h : sf ≠ .s) (rD : Reg) (k : Byte) (sh : Shift) (s : State) :
    exec (.loadShort rD k sh sf) s = .next (loadStep rD (shiftResult (k.setWidth 16) sh) s) := by
  obtain ⟨hs, -⟩ | ⟨-, hnext⟩ := execLoadShort_cases rD k sh sf s
  · exact absurd hs h
  · rw [← shifted_eq_shiftResult]
    exact hnext

theorem exec_loadReg_of_ne_s {sf : SF} (h : sf ≠ .s) (rD rS : Reg) (s : State) :
    exec (.loadReg rD rS .noShift sf) s = .next (loadStep rD (s.getReg rS) s) := by
  obtain ⟨hs, -⟩ | ⟨-, hsh, -⟩ | ⟨-, -, hnext⟩ := execLoadReg_cases rD rS .noShift sf s
  · exact absurd hs h
  · exact absurd rfl hsh
  · exact hnext

/-! ### R30 on the register form with a shift -/

/-- The check of the override comes first, so this reason is given under `[A]` and `[N]` alone. -/
theorem refusal_loadReg_lsl {sf : SF} (h : sf ≠ .s) (rD rS : Reg) (n : BitVec 4) :
    (Instr.loadReg rD rS (.lsl n) sf).refusal = some .loadRegShiftNotInSource := by
  cases sf with
  | s => exact absurd rfl h
  | a | n => rfl

/-! ### The rules -/

/-- Settles O25, format by format: an admitted LOAD is LOAD's write of its operand, and R30's table gives the
refusals. -/
theorem loadRules : Obligations.LoadRules := by
  refine ⟨fun rD k s => ⟨fun sf => ?immSpelling, fun _ => rfl, fun sf hsf => ?immNext, ?immS⟩,
    fun rD k sh s => ⟨fun sf n => ?shortSpelling, fun _ => rfl, fun sf hsf => ?shortNext, ?shortS⟩,
    fun rD rS s => ⟨fun _ => rfl, fun _ => rfl, fun sf hsf => ?regNext, fun sf n hsf => ?regShift, fun sh => ?regS⟩⟩
  case immSpelling => exact assembleImm_toNat .load rD k sf
  case immNext => exact ⟨_, exec_loadImm_of_ne_s hsf rD k s, loadNext_loadStep ..⟩
  case immS => exact exec_eq_refuse_iff.mpr rfl
  case shortSpelling => exact assembleShort_toNat .load rD k n sf
  case shortNext => exact ⟨_, exec_loadShort_of_ne_s hsf rD k sh s, loadNext_loadStep ..⟩
  case shortS => exact exec_eq_refuse_iff.mpr rfl
  case regNext => exact ⟨_, exec_loadReg_of_ne_s hsf rD rS s, loadNext_loadStep ..⟩
  case regShift => exact exec_eq_refuse_iff.mpr (refusal_loadReg_lsl hsf rD rS n)
  case regS => exact exec_eq_refuse_iff.mpr rfl

end Sys2Proof.Machine
end

section
/-! The statements of `44_test_compare.md`: the rules of CMP, TSA and TSX in their three formats (R94 to R102). The layer
of `41_arithmetic.md` gives both immediate formats; only the register form, which has no destination, is new. -/

namespace Sys2Proof.Machine

/-! ### The register form of a test operation (R40, R48, R50) -/

theorem exec_of_ofReg2 {op : Op} {f : AluFn} {rS1 rS2 : Reg} {sh : Shift} {sf : SF} {i : Instr}
    (hf : aluOf op = some f) (hi : Instr.ofReg2 op rS1 rS2 sh sf = some i) :
    exec i = aluReg f none rS1 rS2 sh sf := by
  cases op with
  | add | adc | sub | sbc | and | orr | xor | load => cases hi
  | cmp | tsa | tsx => cases hf; cases hi; rfl

theorem regTestRule_of_ofReg2 {name : Op} {f : AluFn} {op : AluClaim} {mk : Reg → Reg → Shift → SF → Instr}
    (hmk : ∀ rS1 rS2 sh sf, Instr.ofReg2 name rS1 rS2 sh sf = some (mk rS1 rS2 sh sf))
    (hf : aluOf name = some f) (h : Computes f op) : RegTestRule name op (opcodeOf .reg name) mk := by
  intro rS1 rS2 sh sf s
  have hi := hmk rS1 rS2 sh sf
  obtain ⟨-, hshape⟩ := shape_of_ofReg2 hi
  rw [exec_of_ofReg2 hf hi]
  refine ⟨assembleReg_two hi, ?encoding, _, rfl, aluNext_aluStep h ..⟩
  case encoding => simp only [encode, hshape, regWord, Reg.codeOrZero]

/-- The three rules of a test operation. -/
theorem testRules_of_computes {name : Op} {f : AluFn} {op : AluClaim} {mk : Reg → Reg → Shift → SF → Instr}
    (hmk : ∀ rS1 rS2 sh sf, Instr.ofReg2 name rS1 rS2 sh sf = some (mk rS1 rS2 sh sf))
    (hf : aluOf name = some f) (h : Computes f op) :
    ImmRule name op (opcodeOf .imm name) (.ofImm name) ∧ ShortRule name op (opcodeOf .short name) (.ofShort name) ∧
      RegTestRule name op (opcodeOf .reg name) mk :=
  ⟨immRule_ofImm hf h, shortRule_ofShort hf h, regTestRule_of_ofReg2 hmk hf h⟩

/-! ### CMP, TSA and TSX: each tests with the ALU operation of SUB, AND or XOR (R55, R56) -/

/-- Settles O26: CMP reports the flags of R55's difference. -/
theorem cmpRules : Obligations.CmpRules :=
  testRules_of_computes (fun _ _ _ _ => rfl) rfl computes_aluSub

/-- Settles O27: TSA reports the flags of R56's conjunction. -/
theorem tsaRules : Obligations.TsaRules :=
  testRules_of_computes (fun _ _ _ _ => rfl) rfl computes_aluAnd

/-- Settles O28: TSX reports the flags of R56's exclusive disjunction. -/
theorem tsxRules : Obligations.TsxRules :=
  testRules_of_computes (fun _ _ _ _ => rfl) rfl computes_aluXor

end Sys2Proof.Machine
end

section
/-! The statements of `70_reset_and_hazards.md`: where a run starts (R120, R121), that it ends (R123;
`60_exceptions.md` R118), and that a refused step is the last thing that happens in it (R123, R110). -/

namespace Sys2Proof.Machine

/-! ### The start of a run -/

@[simp] theorem State.launch_pc (p : List ProgramEntry) (x : Regs) (sr : StatusRegister) :
    (State.launch p x sr).pc = 0 := rfl

/-- Position 0 lies inside every program, or just past the empty one. -/
theorem State.launch_inv (p : List ProgramEntry) (x : Regs) (sr : StatusRegister) : (State.launch p x sr).Inv :=
  Nat.zero_le p.length

/-- Settles O44: the reset state is itself a launch state, of the empty program. -/
theorem launchStartsAtZero : Obligations.LaunchStartsAtZero :=
  ⟨fun p x sr => ⟨State.launch_pc p x sr, State.launch_inv p x sr, rfl, rfl, rfl⟩,
    State.launch_pc .., State.launch_inv ..⟩

/-! ### Every run ends -/

theorem exec_next_or_refused (i : Instr) (s : State) :
    (∃ t, exec i s = .next t) ∨ ∃ r, exec i s = .refused (.refuse r) := by
  cases hr : i.refusal with
  | none => exact .inl (exec_next_iff.mpr hr)
  | some r => exact .inr ⟨r, exec_eq_refuse_iff.mpr hr⟩

/-- Inside the program a step goes on or is refused with a reason of R110: the entry's word may be refused, and so may
the instruction it stands for. -/
theorem step_next_or_refused {s : State} (h : s.pc < s.program.length) :
    (∃ t, step s = .next t) ∨ ∃ r, step s = .refused (.refuse r) := by
  have he : s.program[s.pc]? = some s.program[s.pc] := List.getElem?_eq_getElem h
  cases hd : decodeEntry s.program[s.pc] with
  | ok i => simpa only [step_of_entry he hd] using exec_next_or_refused i s
  | error r => exact .inr ⟨r, step_of_refused_entry he hd⟩

/-- Within the `n` steps from `s` one is refused with a reason of R110. -/
def State.RefusedWithin (s : State) (n : Nat) : Prop :=
  ∃ k u r, k < n ∧ runSteps k s = .next u ∧ step u = .refused (.refuse r)

theorem State.refusedWithin_of_step_refused {s : State} {r : RefuseReason} (h : step s = .refused (.refuse r))
    (n : Nat) : s.RefusedWithin (n + 1) :=
  ⟨0, s, r, n.succ_pos, rfl, h⟩

/-- A step that goes on only puts off the refusal by one. -/
theorem State.RefusedWithin.of_step_next {s t : State} {n : Nat} (hstep : step s = .next t)
    (h : t.RefusedWithin n) : s.RefusedWithin (n + 1) := by
  obtain ⟨k, u, r, hk, hrun, hrefused⟩ := h
  exact ⟨k + 1, u, r, Nat.succ_lt_succ hk, (runSteps_succ_of_next hstep k).trans hrun, hrefused⟩

/-- `n` steps inside the program answer a next state, or one of them is refused. -/
theorem runSteps_next_or_refusedWithin {n : Nat} {s : State} (hn : s.pc + n ≤ s.program.length) :
    (∃ t, runSteps n s = .next t) ∨ s.RefusedWithin n := by
  induction n generalizing s with
  | zero => exact .inl ⟨s, rfl⟩
  | succ n ih =>
    obtain ⟨t, hstep⟩ | ⟨r, hrefused⟩ := step_next_or_refused (s := s) (by omega)
    · obtain ⟨hpc, hprogram⟩ := step_next_position hstep
      have hrest : t.pc + n ≤ t.program.length := by
        rw [hpc, hprogram]
        omega
      rw [runSteps_succ_of_next hstep]
      exact (ih hrest).imp_right (.of_step_next hstep)
    · exact .inr (State.refusedWithin_of_step_refused hrefused n)

/-- Settles O45, by induction on the number of entries that remain (`runSteps_next_or_refusedWithin`): every step
either moves `pc` on by one or is refused. -/
theorem everyRunEnds : Obligations.EveryRunEnds := by
  intro s hinv
  have hend : s.pc + (s.program.length - s.pc) = s.program.length := Nat.add_sub_cancel' hinv
  exact (runSteps_next_or_refusedWithin hend.le).imp_left (completes_iff_runSteps_next hinv).mpr

/-! ### A refused step ends the run -/

/-- A run of `k + m` steps is the run of `m` steps from where its first `k` lead. -/
theorem runSteps_add_of_next {k : Nat} {s u : State} (h : runSteps k s = .next u) (m : Nat) :
    runSteps (k + m) s = runSteps m u := by
  induction k generalizing s with
  | zero =>
    cases h
    rw [Nat.zero_add]
  | succ k ih =>
    obtain ⟨t, hstep, hrun⟩ := runSteps_succ_eq_next_iff.mp h
    rw [Nat.succ_add, runSteps_succ_of_next hstep, ih hrun]

theorem runSteps_succ_of_refused {s : State} {r : Refusal} (h : step s = .refused r) (n : Nat) :
    runSteps (n + 1) s = .refused r := by
  simp [runSteps, h]

theorem runSteps_succ_of_final {s : State} (h : s.Final) (n : Nat) : runSteps (n + 1) s = .fault .runEnded := by
  simp [runSteps, (runEndsAtProgramEnd s).1.mpr h]

/-- Every run that takes the refused step answers its refusal. -/
theorem runSteps_of_refused_step {s u : State} {k n : Nat} {r : Refusal} (hrun : runSteps k s = .next u)
    (hstep : step u = .refused r) (hlt : k < n) : runSteps n s = .refused r := by
  obtain ⟨m, rfl⟩ := Nat.exists_eq_add_of_lt hlt
  rw [Nat.add_assoc, runSteps_add_of_next hrun, runSteps_succ_of_refused hstep]

/-- From a final state on, every longer run says that the run has ended. -/
theorem runSteps_of_final {s v : State} {n m : Nat} (hrun : runSteps n s = .next v) (hfinal : v.Final)
    (hlt : n < m) : runSteps m s = .fault .runEnded := by
  obtain ⟨j, rfl⟩ := Nat.exists_eq_add_of_lt hlt
  rw [Nat.add_assoc, runSteps_add_of_next hrun, runSteps_succ_of_final hfinal]

/-- Settles O47: were a final state ever reached, a run long enough to pass both it and the refused step would be
refused and at its end at once. -/
theorem refusedRunNeverFinal : Obligations.RefusedRunNeverFinal := by
  intro s u k r hrun hstep n
  refine ⟨fun v hv hfinal => ?_, runSteps_of_refused_step hrun hstep⟩
  have hrefused : runSteps (k + n + 1) s = .refused r := runSteps_of_refused_step hrun hstep (by omega)
  have hended : runSteps (k + n + 1) s = .fault .runEnded := runSteps_of_final hv hfinal (by omega)
  cases hrefused.symm.trans hended

end Sys2Proof.Machine
end
